-- ==== Sys2Proof/Word.lean ====
section
/-! DEFINITION. The machine's two word types (spec 00_scope.md R4, 5.1): 8-bit bytes and 16-bit words, both
plain bit vectors, so that all register arithmetic wraps modulo 2^width. -/

namespace Sys2Proof

/-- A `u8`: a memory cell, a port value, a half register, `I`, `R`, `F` (R4). -/
abbrev Byte := BitVec 8

/-- A `u16`: a register slot, a memory address, a port address (R4). -/
abbrev Word := BitVec 16

end Sys2Proof
end

