-- ==== Sys2Proof/Machine/Bits.lean ====
section
/-! DEFINITION. Bit fields, byte order and sign extension (spec 00_scope.md 5.1, 10_state.md R11): the halves of a
16-bit value, their assembly, and the fields `x y z p q` of an opcode byte (30_encoding.md R61). -/

namespace Sys2Proof

/-- `hi(w) = w[15:8]`. -/
def hi (w : Word) : Byte := w.extractLsb' 8 8

/-- `lo(w) = w[7:0]`. -/
def lo (w : Word) : Byte := w.extractLsb' 0 8

/-- `h ++ l = h * 256 + l`: the 16-bit value with high byte `h` and low byte `l`. -/
def join (h l : Byte) : Word := h ++ l

/-- Replace the high half; the low half is not disturbed (R11). -/
def setHi (w : Word) (v : Byte) : Word := join v (lo w)

/-- Replace the low half; the high half is not disturbed (R11). -/
def setLo (w : Word) (v : Byte) : Word := join (hi w) v

/-- `sext_16(b)`: two's-complement sign extension. -/
def sext16 (b : Byte) : Word := b.signExtend 16

/-- `parity(b)`: true when the number of 1 bits is even. -/
def parity (b : Byte) : Bool :=
  !(b.getLsbD 0 ^^ b.getLsbD 1 ^^ b.getLsbD 2 ^^ b.getLsbD 3 ^^ b.getLsbD 4 ^^ b.getLsbD 5 ^^ b.getLsbD 6 ^^ b.getLsbD 7)

/-- Field `x = op[7:6]` (R61). -/
def opX (op : Byte) : Nat := op.toNat / 64

/-- Field `y = op[5:3]` (R61). -/
def opY (op : Byte) : Nat := op.toNat / 8 % 8

/-- Field `z = op[2:0]` (R61). -/
def opZ (op : Byte) : Nat := op.toNat % 8

/-- Field `p = op[5:4]` (R61). -/
def opP (op : Byte) : Nat := op.toNat / 16 % 4

/-- Field `q = op[3]` (R61). -/
def opQ (op : Byte) : Nat := op.toNat / 8 % 2

/-- Field `y` as the 3-bit value an instruction carries (R63: `b`, `t`). -/
def opY3 (op : Byte) : BitVec 3 := op.extractLsb' 3 3

/-- Field `z` as the 3-bit value an instruction carries. -/
def opZ3 (op : Byte) : BitVec 3 := op.extractLsb' 0 3

/-- The opcode byte with fields `x`, `y`, `z` (R61). -/
def opc (x y z : Nat) : Byte := BitVec.ofNat 8 (64 * x + 8 * y + z)

/-- The opcode byte with fields `x`, `p`, `q`, `z` (R61). -/
def opcPQ (x p q z : Nat) : Byte := BitVec.ofNat 8 (64 * x + 16 * p + 8 * q + z)

end Sys2Proof
end

