-- ==== Sys2Proof/Syntax.lean ====
section
/-! DEFINITION. The syntax of the instruction set: the operand types (spec 30_encoding.md R62, R63) and `Instr`, one
constructor per row of spec/opcode_table.json. `II` is `IX` in table `DD` and `IY` in table `FD` (R72), so every
row of the groups `XY` and `XYCB` carries the index register it names. A prefix byte is a row, and so an
instruction, of its own: its effect is to move the decode state (R70, R71). -/

namespace Sys2Proof

/-- The 8-bit operand `r` (R62 table `r`, value 6 excluded: it is the memory operand). -/
inductive Reg8 where
  | b | c | d | e | h | l | a
  deriving DecidableEq, Repr

/-- The 8-bit operand `p` of tables `DD`/`FD`, where 4 and 5 mean `IIH` and `IIL` (R72 item 3, R134). -/
inductive RegP where
  | b | c | d | e | iih | iil | a
  deriving DecidableEq, Repr

/-- The pair operand `ss` (R62 table `rp`). -/
inductive Pair where
  | bc | de | hl | sp
  deriving DecidableEq, Repr

/-- The pair operand `qq` of `PUSH` and `POP` (R62 table `rp2`). -/
inductive PairQ where
  | bc | de | hl | af
  deriving DecidableEq, Repr

/-- The pair operand `pp` of `ADD II,pp`, where value 2 names `II` itself (43_arith16.md). -/
inductive PairX where
  | bc | de | ii | sp
  deriving DecidableEq, Repr

/-- The condition operand `cc` (R62 table `cc`, R110). -/
inductive Cond where
  | nz | z | nc | c | po | pe | p | m
  deriving DecidableEq, Repr

/-- The index register `II` that a `DD` or `FD` prefix selects (R72). -/
inductive Idx where
  | ix | iy
  deriving DecidableEq, Repr

/-- The seven decode tables (00_scope.md glossary "decode table"). -/
inductive Table where
  | np | cb | ed | dd | fd | ddcb | fdcb
  deriving DecidableEq, Repr

/-- The instructions: one constructor per row of spec/opcode_table.json. A field that the row decodes and ignores (`y`
of `NEG`, `RETN`, `IM`, `z` of `BIT b,(II+d)`) is kept, so that an instruction stands for one encoding. -/
inductive Instr where
  -- table NP (R65)
  /-- `NOP` (R358) -/
  | nop
  /-- `EX AF,AF'` (R165) -/
  | exAfAf
  /-- `DJNZ e` (R325) -/
  | djnz (e : Byte)
  /-- `JR e` (R322) -/
  | jr (e : Byte)
  /-- `JR cc,e` (R324) -/
  | jrCc (cc : Cond) (e : Byte)
  /-- `LD ss,nn` (R140) -/
  | ldSsNn (ss : Pair) (nn : Word)
  /-- `ADD HL,ss` (R220) -/
  | addHlSs (ss : Pair)
  /-- `LD (BC),A` (R128) -/
  | ldMemBcA
  /-- `LD (DE),A` (R129) -/
  | ldMemDeA
  /-- `LD (nn),HL` (R145) -/
  | ldMemNnHl (nn : Word)
  /-- `LD (nn),A` (R130) -/
  | ldMemNnA (nn : Word)
  /-- `LD A,(BC)` (R125) -/
  | ldAMemBc
  /-- `LD A,(DE)` (R126) -/
  | ldAMemDe
  /-- `LD HL,(nn)` (R142) -/
  | ldHlMemNn (nn : Word)
  /-- `LD A,(nn)` (R127) -/
  | ldAMemNn (nn : Word)
  /-- `INC ss` (R224) -/
  | incSs (ss : Pair)
  /-- `DEC ss` (R226) -/
  | decSs (ss : Pair)
  /-- `INC r` (R191) -/
  | incReg (r : Reg8)
  /-- `INC (HL)` (R191) -/
  | incMem
  /-- `DEC r` (R192) -/
  | decReg (r : Reg8)
  /-- `DEC (HL)` (R192) -/
  | decMem
  /-- `LD r,n` (R121) -/
  | ldRegN (r : Reg8) (n : Byte)
  /-- `LD (HL),n` (R124) -/
  | ldMemN (n : Byte)
  /-- `RLCA` (R240) -/
  | rlca
  /-- `RRCA` (R241) -/
  | rrca
  /-- `RLA` (R242) -/
  | rla
  /-- `RRA` (R243) -/
  | rra
  /-- `DAA` (R193) -/
  | daa
  /-- `CPL` (R194) -/
  | cpl
  /-- `SCF` (R196) -/
  | scf
  /-- `CCF` (R197) -/
  | ccf
  /-- `LD r,r'` (R120) -/
  | ldRegReg (r : Reg8) (r' : Reg8)
  /-- `LD r,(HL)` (R122) -/
  | ldRegMem (r : Reg8)
  /-- `LD (HL),r` (R123) -/
  | ldMemReg (r : Reg8)
  /-- `HALT` (R359) -/
  | halt
  /-- `ADD A,r` (R182) -/
  | addReg (r : Reg8)
  /-- `ADD A,(HL)` (R182) -/
  | addMem
  /-- `ADD A,n` (R182) -/
  | addN (n : Byte)
  /-- `ADC A,r` (R183) -/
  | adcReg (r : Reg8)
  /-- `ADC A,(HL)` (R183) -/
  | adcMem
  /-- `ADC A,n` (R183) -/
  | adcN (n : Byte)
  /-- `SUB r` (R184) -/
  | subReg (r : Reg8)
  /-- `SUB (HL)` (R184) -/
  | subMem
  /-- `SUB n` (R184) -/
  | subN (n : Byte)
  /-- `SBC A,r` (R185) -/
  | sbcReg (r : Reg8)
  /-- `SBC A,(HL)` (R185) -/
  | sbcMem
  /-- `SBC A,n` (R185) -/
  | sbcN (n : Byte)
  /-- `AND r` (R186) -/
  | andReg (r : Reg8)
  /-- `AND (HL)` (R186) -/
  | andMem
  /-- `AND n` (R186) -/
  | andN (n : Byte)
  /-- `XOR r` (R187) -/
  | xorReg (r : Reg8)
  /-- `XOR (HL)` (R187) -/
  | xorMem
  /-- `XOR n` (R187) -/
  | xorN (n : Byte)
  /-- `OR r` (R188) -/
  | orReg (r : Reg8)
  /-- `OR (HL)` (R188) -/
  | orMem
  /-- `OR n` (R188) -/
  | orN (n : Byte)
  /-- `CP r` (R189) -/
  | cpReg (r : Reg8)
  /-- `CP (HL)` (R189) -/
  | cpMem
  /-- `CP n` (R189) -/
  | cpN (n : Byte)
  /-- `RET cc` (R333) -/
  | retCc (cc : Cond)
  /-- `POP qq` (R152) -/
  | popQq (qq : PairQ)
  /-- `RET` (R332) -/
  | ret
  /-- `EXX` (R166) -/
  | exx
  /-- `JP (HL)` (R326) -/
  | jpHl
  /-- `LD SP,HL` (R148) -/
  | ldSpHl
  /-- `JP cc,nn` (R321) -/
  | jpCc (cc : Cond) (nn : Word)
  /-- `JP nn` (R320) -/
  | jp (nn : Word)
  /-- `prefix CB` (R70) -/
  | prefixCb
  /-- `OUT (n),A` (R354) -/
  | outNA (n : Byte)
  /-- `IN A,(n)` (R351) -/
  | inAN (n : Byte)
  /-- `EX (SP),HL` (R167) -/
  | exSpHl
  /-- `EX DE,HL` (R160) -/
  | exDeHl
  /-- `DI` (R360) -/
  | di
  /-- `EI` (R361) -/
  | ei
  /-- `CALL cc,nn` (R331) -/
  | callCc (cc : Cond) (nn : Word)
  /-- `PUSH qq` (R150) -/
  | pushQq (qq : PairQ)
  /-- `CALL nn` (R330) -/
  | call (nn : Word)
  /-- `prefix DD` (R70) -/
  | prefixDd
  /-- `prefix ED` (R70) -/
  | prefixEd
  /-- `prefix FD` (R70) -/
  | prefixFd
  /-- `RST t` (R340) -/
  | rst (t : BitVec 3)
  -- table CB (R66)
  /-- `RLC r` (R246) -/
  | rlcReg (r : Reg8)
  /-- `RLC (HL)` (R246) -/
  | rlcMem
  /-- `RRC r` (R247) -/
  | rrcReg (r : Reg8)
  /-- `RRC (HL)` (R247) -/
  | rrcMem
  /-- `RL r` (R248) -/
  | rlReg (r : Reg8)
  /-- `RL (HL)` (R248) -/
  | rlMem
  /-- `RR r` (R249) -/
  | rrReg (r : Reg8)
  /-- `RR (HL)` (R249) -/
  | rrMem
  /-- `SLA r` (R250) -/
  | slaReg (r : Reg8)
  /-- `SLA (HL)` (R250) -/
  | slaMem
  /-- `SRA r` (R251) -/
  | sraReg (r : Reg8)
  /-- `SRA (HL)` (R251) -/
  | sraMem
  /-- `SLL r` (R252) -/
  | sllReg (r : Reg8)
  /-- `SLL (HL)` (R252) -/
  | sllMem
  /-- `SRL r` (R253) -/
  | srlReg (r : Reg8)
  /-- `SRL (HL)` (R253) -/
  | srlMem
  /-- `BIT b,r` (R270) -/
  | bitReg (b : BitVec 3) (r : Reg8)
  /-- `BIT b,(HL)` (R271) -/
  | bitMem (b : BitVec 3)
  /-- `RES b,r` (R277) -/
  | resReg (b : BitVec 3) (r : Reg8)
  /-- `RES b,(HL)` (R278) -/
  | resMem (b : BitVec 3)
  /-- `SET b,r` (R273) -/
  | setReg (b : BitVec 3) (r : Reg8)
  /-- `SET b,(HL)` (R274) -/
  | setMem (b : BitVec 3)
  -- table ED (R67, R68)
  /-- `IN r,(C)` (R352) -/
  | inRegC (r : Reg8)
  /-- `IN (C)` (R353) -/
  | inFC
  /-- `OUT (C),r` (R355) -/
  | outCReg (r : Reg8)
  /-- `OUT (C),0` (R356) -/
  | outCZero
  /-- `SBC HL,ss` (R223) -/
  | sbcHlSs (ss : Pair)
  /-- `ADC HL,ss` (R222) -/
  | adcHlSs (ss : Pair)
  /-- `LD (nn),ss` (R146) -/
  | ldMemNnSs (nn : Word) (ss : Pair)
  /-- `LD ss,(nn)` (R143) -/
  | ldSsMemNn (ss : Pair) (nn : Word)
  /-- `NEG` (R195) -/
  | neg (y : BitVec 3)
  /-- `RETN` (R334) -/
  | retn (y : BitVec 3)
  /-- `RETI` (R335) -/
  | reti
  /-- `IM 0` (R362) -/
  | im0 (y : BitVec 3)
  /-- `IM 1` (R363) -/
  | im1 (y : BitVec 3)
  /-- `IM 2` (R364) -/
  | im2 (y : BitVec 3)
  /-- `LD I,A` (R138) -/
  | ldIA
  /-- `LD R,A` (R139) -/
  | ldRA
  /-- `LD A,I` (R136) -/
  | ldAI
  /-- `LD A,R` (R137) -/
  | ldAR
  /-- `RRD` (R255) -/
  | rrd
  /-- `RLD` (R254) -/
  | rld
  /-- `LDI` (R292) -/
  | ldi
  /-- `CPI` (R296) -/
  | cpi
  /-- `INI` (R300) -/
  | ini
  /-- `OUTI` (R304) -/
  | outi
  /-- `LDD` (R293) -/
  | ldd
  /-- `CPD` (R297) -/
  | cpd
  /-- `IND` (R301) -/
  | ind
  /-- `OUTD` (R305) -/
  | outd
  /-- `LDIR` (R294) -/
  | ldir
  /-- `CPIR` (R298) -/
  | cpir
  /-- `INIR` (R302) -/
  | inir
  /-- `OTIR` (R306) -/
  | otir
  /-- `LDDR` (R295) -/
  | lddr
  /-- `CPDR` (R299) -/
  | cpdr
  /-- `INDR` (R303) -/
  | indr
  /-- `OTDR` (R307) -/
  | otdr
  /-- `NOP*` (R365) -/
  | nopEd (op : Byte)
  -- tables DD and FD (R71, R72)
  /-- `INC (II+d)` (R191) -/
  | incIdx (ii : Idx) (d : Byte)
  /-- `DEC (II+d)` (R192) -/
  | decIdx (ii : Idx) (d : Byte)
  /-- `LD (II+d),n` (R133) -/
  | ldIdxN (ii : Idx) (d : Byte) (n : Byte)
  /-- `LD r,(II+d)` (R131) -/
  | ldRegIdx (r : Reg8) (ii : Idx) (d : Byte)
  /-- `LD (II+d),r` (R132) -/
  | ldIdxReg (ii : Idx) (d : Byte) (r : Reg8)
  /-- `ADD A,(II+d)` (R182) -/
  | addIdx (ii : Idx) (d : Byte)
  /-- `ADC A,(II+d)` (R183) -/
  | adcIdx (ii : Idx) (d : Byte)
  /-- `SUB (II+d)` (R184) -/
  | subIdx (ii : Idx) (d : Byte)
  /-- `SBC A,(II+d)` (R185) -/
  | sbcIdx (ii : Idx) (d : Byte)
  /-- `AND (II+d)` (R186) -/
  | andIdx (ii : Idx) (d : Byte)
  /-- `XOR (II+d)` (R187) -/
  | xorIdx (ii : Idx) (d : Byte)
  /-- `OR (II+d)` (R188) -/
  | orIdx (ii : Idx) (d : Byte)
  /-- `CP (II+d)` (R189) -/
  | cpIdx (ii : Idx) (d : Byte)
  /-- `ADD II,pp` (R221) -/
  | addIiPp (ii : Idx) (pp : PairX)
  /-- `LD II,nn` (R141) -/
  | ldIiNn (ii : Idx) (nn : Word)
  /-- `LD (nn),II` (R147) -/
  | ldMemNnIi (nn : Word) (ii : Idx)
  /-- `LD II,(nn)` (R144) -/
  | ldIiMemNn (ii : Idx) (nn : Word)
  /-- `INC II` (R225) -/
  | incIi (ii : Idx)
  /-- `DEC II` (R227) -/
  | decIi (ii : Idx)
  /-- `POP II` (R153) -/
  | popIi (ii : Idx)
  /-- `EX (SP),II` (R168) -/
  | exSpIi (ii : Idx)
  /-- `PUSH II` (R151) -/
  | pushIi (ii : Idx)
  /-- `JP (II)` (R327) -/
  | jpIi (ii : Idx)
  /-- `LD SP,II` (R149) -/
  | ldSpIi (ii : Idx)
  /-- `INC IIH` (R191) -/
  | incIih (ii : Idx)
  /-- `DEC IIH` (R192) -/
  | decIih (ii : Idx)
  /-- `LD IIH,n` (R135) -/
  | ldIihN (ii : Idx) (n : Byte)
  /-- `INC IIL` (R191) -/
  | incIil (ii : Idx)
  /-- `DEC IIL` (R192) -/
  | decIil (ii : Idx)
  /-- `LD IIL,n` (R135) -/
  | ldIilN (ii : Idx) (n : Byte)
  /-- `LD p,p'` (R134) -/
  | ldPP (ii : Idx) (p : RegP) (p' : RegP)
  /-- `ADD A,IIH` (R182) -/
  | addIih (ii : Idx)
  /-- `ADD A,IIL` (R182) -/
  | addIil (ii : Idx)
  /-- `ADC A,IIH` (R183) -/
  | adcIih (ii : Idx)
  /-- `ADC A,IIL` (R183) -/
  | adcIil (ii : Idx)
  /-- `SUB IIH` (R184) -/
  | subIih (ii : Idx)
  /-- `SUB IIL` (R184) -/
  | subIil (ii : Idx)
  /-- `SBC A,IIH` (R185) -/
  | sbcIih (ii : Idx)
  /-- `SBC A,IIL` (R185) -/
  | sbcIil (ii : Idx)
  /-- `AND IIH` (R186) -/
  | andIih (ii : Idx)
  /-- `AND IIL` (R186) -/
  | andIil (ii : Idx)
  /-- `XOR IIH` (R187) -/
  | xorIih (ii : Idx)
  /-- `XOR IIL` (R187) -/
  | xorIil (ii : Idx)
  /-- `OR IIH` (R188) -/
  | orIih (ii : Idx)
  /-- `OR IIL` (R188) -/
  | orIil (ii : Idx)
  /-- `CP IIH` (R189) -/
  | cpIih (ii : Idx)
  /-- `CP IIL` (R189) -/
  | cpIil (ii : Idx)
  /-- `prefix CB (in table XY)` (R71) -/
  | prefixCbXy (ii : Idx)
  /-- `prefix DD (in table XY)` (R71) -/
  | prefixDdXy (ii : Idx)
  /-- `prefix FD (in table XY)` (R71) -/
  | prefixFdXy (ii : Idx)
  /-- `prefix ED (in table XY)` (R71) -/
  | prefixEdXy (ii : Idx)
  /-- `(the NP entry for op, unchanged)` (R72) -/
  | npUnchanged (ii : Idx) (i : Instr)
  -- tables DDCB and FDCB (R74)
  /-- `RLC (II+d)` (R246) -/
  | rlcIdx (ii : Idx) (d : Byte)
  /-- `RLC (II+d),r` (R246) -/
  | rlcIdxReg (ii : Idx) (d : Byte) (r : Reg8)
  /-- `RRC (II+d)` (R247) -/
  | rrcIdx (ii : Idx) (d : Byte)
  /-- `RRC (II+d),r` (R247) -/
  | rrcIdxReg (ii : Idx) (d : Byte) (r : Reg8)
  /-- `RL (II+d)` (R248) -/
  | rlIdx (ii : Idx) (d : Byte)
  /-- `RL (II+d),r` (R248) -/
  | rlIdxReg (ii : Idx) (d : Byte) (r : Reg8)
  /-- `RR (II+d)` (R249) -/
  | rrIdx (ii : Idx) (d : Byte)
  /-- `RR (II+d),r` (R249) -/
  | rrIdxReg (ii : Idx) (d : Byte) (r : Reg8)
  /-- `SLA (II+d)` (R250) -/
  | slaIdx (ii : Idx) (d : Byte)
  /-- `SLA (II+d),r` (R250) -/
  | slaIdxReg (ii : Idx) (d : Byte) (r : Reg8)
  /-- `SRA (II+d)` (R251) -/
  | sraIdx (ii : Idx) (d : Byte)
  /-- `SRA (II+d),r` (R251) -/
  | sraIdxReg (ii : Idx) (d : Byte) (r : Reg8)
  /-- `SLL (II+d)` (R252) -/
  | sllIdx (ii : Idx) (d : Byte)
  /-- `SLL (II+d),r` (R252) -/
  | sllIdxReg (ii : Idx) (d : Byte) (r : Reg8)
  /-- `SRL (II+d)` (R253) -/
  | srlIdx (ii : Idx) (d : Byte)
  /-- `SRL (II+d),r` (R253) -/
  | srlIdxReg (ii : Idx) (d : Byte) (r : Reg8)
  /-- `BIT b,(II+d)` (R272) -/
  | bitIdx (ii : Idx) (d : Byte) (b : BitVec 3) (z : BitVec 3)
  /-- `RES b,(II+d)` (R279) -/
  | resIdx (ii : Idx) (d : Byte) (b : BitVec 3)
  /-- `RES b,(II+d),r` (R280) -/
  | resIdxReg (ii : Idx) (d : Byte) (b : BitVec 3) (r : Reg8)
  /-- `SET b,(II+d)` (R275) -/
  | setIdx (ii : Idx) (d : Byte) (b : BitVec 3)
  /-- `SET b,(II+d),r` (R276) -/
  | setIdxReg (ii : Idx) (d : Byte) (b : BitVec 3) (r : Reg8)
  deriving DecidableEq, Repr

end Sys2Proof
end

