-- ==== Sys2Proof/WellFormed.lean ====
section
/-! DEFINITION. Well-formedness of an instruction term: which operand values the row's encoding admits (the `not` and
`in` constraints of spec/opcode_table.json, 30_encoding.md R67, R68, R72, R78). Operands whose type already is the
row's value set need no check. -/

namespace Sys2Proof

/-- `JR cc,e` accepts only `NZ, Z, NC, C` (R324, R110). -/
def Cond.jrOk : Cond → Bool
  | .nz | .z | .nc | .c => true
  | .po | .pe | .p | .m => false

/-- The register is `H` or `L`, which tables `DD`/`FD` read as `IIH`, `IIL` (R72 item 3). -/
def Reg8.isHL : Reg8 → Bool
  | .h | .l => true
  | .b | .c | .d | .e | .a => false

/-- The operand is `IIH` or `IIL` (R134). -/
def RegP.isHalf : RegP → Bool
  | .iih | .iil => true
  | .b | .c | .d | .e | .a => false

/-- The 178 opcodes of table `ED` that execute as `NOP*` (R68): the 176 holes, `77` and `7F`. -/
def edHole (op : Byte) : Bool :=
  let n := op.toNat
  n < 0x40 || n == 0x77 || n == 0x7F || (0x80 ≤ n && n < 0xA0) || (0xA4 ≤ n && n < 0xA8) || (0xAC ≤ n && n < 0xB0)
    || (0xB4 ≤ n && n < 0xB8) || (0xBC ≤ n && n < 0x100)

/-- The instruction is one of table `NP` that tables `DD`/`FD` leave unchanged (R72 item 5): its opcode has no `(HL)`,
names neither `HL` nor `H` nor `L` as an operand that items 1 to 3 would replace, and is no prefix byte.
`EX DE,HL` and `EXX` are kept. -/
def Instr.keptInXY : Instr → Bool
  | .jrCc cc _ => cc.jrOk
  | .ldSsNn ss _ => ss != .hl
  | .incSs ss => ss != .hl
  | .decSs ss => ss != .hl
  | .incReg r => !r.isHL
  | .decReg r => !r.isHL
  | .ldRegN r _ => !r.isHL
  | .ldRegReg r r' => !r.isHL && !r'.isHL
  | .addReg r => !r.isHL
  | .adcReg r => !r.isHL
  | .subReg r => !r.isHL
  | .sbcReg r => !r.isHL
  | .andReg r => !r.isHL
  | .xorReg r => !r.isHL
  | .orReg r => !r.isHL
  | .cpReg r => !r.isHL
  | .popQq qq => qq != .hl
  | .pushQq qq => qq != .hl
  | .nop | .exAfAf | .djnz _ | .jr _ | .ldMemBcA | .ldMemDeA | .ldMemNnA _ | .ldAMemBc | .ldAMemDe
  | .ldAMemNn _ | .rlca | .rrca | .rla | .rra | .daa | .cpl | .scf | .ccf | .halt | .addN _ | .adcN _ | .subN _
  | .sbcN _ | .andN _ | .xorN _ | .orN _ | .cpN _ | .retCc _ | .ret | .exx | .jpCc _ _ | .jp _ | .outNA _
  | .inAN _ | .exDeHl | .di | .ei | .callCc _ _ | .call _ | .rst _ => true
  -- items 1, 2 and 4 of R72: `(HL)`, `HL`, prefix bytes
  | .addHlSs _ | .ldMemNnHl _ | .ldHlMemNn _ | .incMem | .decMem | .ldMemN _ | .ldRegMem _ | .ldMemReg _
  | .addMem | .adcMem | .subMem | .sbcMem | .andMem | .xorMem | .orMem | .cpMem | .jpHl | .ldSpHl | .prefixCb
  | .exSpHl | .prefixDd | .prefixEd | .prefixFd => false
  -- no rows of table `NP`
  | .rlcReg _ | .rlcMem | .rrcReg _ | .rrcMem | .rlReg _ | .rlMem | .rrReg _ | .rrMem | .slaReg _ | .slaMem
  | .sraReg _ | .sraMem | .sllReg _ | .sllMem | .srlReg _ | .srlMem | .bitReg _ _ | .bitMem _ | .resReg _ _
  | .resMem _ | .setReg _ _ | .setMem _ | .inRegC _ | .inFC | .outCReg _ | .outCZero | .sbcHlSs _ | .adcHlSs _
  | .ldMemNnSs _ _ | .ldSsMemNn _ _ | .neg _ | .retn _ | .reti | .im0 _ | .im1 _ | .im2 _ | .ldIA | .ldRA
  | .ldAI | .ldAR | .rrd | .rld | .ldi | .cpi | .ini | .outi | .ldd | .cpd | .ind | .outd | .ldir | .cpir
  | .inir | .otir | .lddr | .cpdr | .indr | .otdr | .nopEd _ | .incIdx _ _ | .decIdx _ _ | .ldIdxN _ _ _
  | .ldRegIdx _ _ _ | .ldIdxReg _ _ _ | .addIdx _ _ | .adcIdx _ _ | .subIdx _ _ | .sbcIdx _ _ | .andIdx _ _
  | .xorIdx _ _ | .orIdx _ _ | .cpIdx _ _ | .addIiPp _ _ | .ldIiNn _ _ | .ldMemNnIi _ _ | .ldIiMemNn _ _
  | .incIi _ | .decIi _ | .popIi _ | .exSpIi _ | .pushIi _ | .jpIi _ | .ldSpIi _ | .incIih _ | .decIih _
  | .ldIihN _ _ | .incIil _ | .decIil _ | .ldIilN _ _ | .ldPP _ _ _ | .addIih _ | .addIil _ | .adcIih _
  | .adcIil _ | .subIih _ | .subIil _ | .sbcIih _ | .sbcIil _ | .andIih _ | .andIil _ | .xorIih _ | .xorIil _
  | .orIih _ | .orIil _ | .cpIih _ | .cpIil _ | .prefixCbXy _ | .prefixDdXy _ | .prefixFdXy _ | .prefixEdXy _
  | .npUnchanged _ _ | .rlcIdx _ _ | .rlcIdxReg _ _ _ | .rrcIdx _ _ | .rrcIdxReg _ _ _ | .rlIdx _ _
  | .rlIdxReg _ _ _ | .rrIdx _ _ | .rrIdxReg _ _ _ | .slaIdx _ _ | .slaIdxReg _ _ _ | .sraIdx _ _
  | .sraIdxReg _ _ _ | .sllIdx _ _ | .sllIdxReg _ _ _ | .srlIdx _ _ | .srlIdxReg _ _ _ | .bitIdx _ _ _ _
  | .resIdx _ _ _ | .resIdxReg _ _ _ _ | .setIdx _ _ _ | .setIdxReg _ _ _ _ => false

/-- The operands are values that the row's encoding admits. -/
def Instr.wf : Instr → Bool
  | .jrCc cc _ => cc.jrOk
  | .retn y => y != 1#3
  | .im0 y => y == 0#3 || y == 1#3 || y == 4#3 || y == 5#3
  | .im1 y => y == 2#3 || y == 6#3
  | .im2 y => y == 3#3 || y == 7#3
  | .nopEd op => edHole op
  | .ldPP _ p p' => p.isHalf || p'.isHalf
  | .npUnchanged _ i => i.keptInXY
  | .nop | .exAfAf | .djnz _ | .jr _ | .ldSsNn _ _ | .addHlSs _ | .ldMemBcA | .ldMemDeA | .ldMemNnHl _
  | .ldMemNnA _ | .ldAMemBc | .ldAMemDe | .ldHlMemNn _ | .ldAMemNn _ | .incSs _ | .decSs _ | .incReg _
  | .incMem | .decReg _ | .decMem | .ldRegN _ _ | .ldMemN _ | .rlca | .rrca | .rla | .rra | .daa | .cpl | .scf
  | .ccf | .ldRegReg _ _ | .ldRegMem _ | .ldMemReg _ | .halt | .addReg _ | .addMem | .addN _ | .adcReg _
  | .adcMem | .adcN _ | .subReg _ | .subMem | .subN _ | .sbcReg _ | .sbcMem | .sbcN _ | .andReg _ | .andMem
  | .andN _ | .xorReg _ | .xorMem | .xorN _ | .orReg _ | .orMem | .orN _ | .cpReg _ | .cpMem | .cpN _
  | .retCc _ | .popQq _ | .ret | .exx | .jpHl | .ldSpHl | .jpCc _ _ | .jp _ | .prefixCb | .outNA _ | .inAN _
  | .exSpHl | .exDeHl | .di | .ei | .callCc _ _ | .pushQq _ | .call _ | .prefixDd | .prefixEd | .prefixFd
  | .rst _ | .rlcReg _ | .rlcMem | .rrcReg _ | .rrcMem | .rlReg _ | .rlMem | .rrReg _ | .rrMem | .slaReg _
  | .slaMem | .sraReg _ | .sraMem | .sllReg _ | .sllMem | .srlReg _ | .srlMem | .bitReg _ _ | .bitMem _
  | .resReg _ _ | .resMem _ | .setReg _ _ | .setMem _ | .inRegC _ | .inFC | .outCReg _ | .outCZero | .sbcHlSs _
  | .adcHlSs _ | .ldMemNnSs _ _ | .ldSsMemNn _ _ | .neg _ | .reti | .ldIA | .ldRA | .ldAI | .ldAR | .rrd | .rld
  | .ldi | .cpi | .ini | .outi | .ldd | .cpd | .ind | .outd | .ldir | .cpir | .inir | .otir | .lddr | .cpdr
  | .indr | .otdr | .incIdx _ _ | .decIdx _ _ | .ldIdxN _ _ _ | .ldRegIdx _ _ _ | .ldIdxReg _ _ _ | .addIdx _ _
  | .adcIdx _ _ | .subIdx _ _ | .sbcIdx _ _ | .andIdx _ _ | .xorIdx _ _ | .orIdx _ _ | .cpIdx _ _
  | .addIiPp _ _ | .ldIiNn _ _ | .ldMemNnIi _ _ | .ldIiMemNn _ _ | .incIi _ | .decIi _ | .popIi _ | .exSpIi _
  | .pushIi _ | .jpIi _ | .ldSpIi _ | .incIih _ | .decIih _ | .ldIihN _ _ | .incIil _ | .decIil _ | .ldIilN _ _
  | .addIih _ | .addIil _ | .adcIih _ | .adcIil _ | .subIih _ | .subIil _ | .sbcIih _ | .sbcIil _ | .andIih _
  | .andIil _ | .xorIih _ | .xorIil _ | .orIih _ | .orIil _ | .cpIih _ | .cpIil _ | .prefixCbXy _
  | .prefixDdXy _ | .prefixFdXy _ | .prefixEdXy _ | .rlcIdx _ _ | .rlcIdxReg _ _ _ | .rrcIdx _ _
  | .rrcIdxReg _ _ _ | .rlIdx _ _ | .rlIdxReg _ _ _ | .rrIdx _ _ | .rrIdxReg _ _ _ | .slaIdx _ _
  | .slaIdxReg _ _ _ | .sraIdx _ _ | .sraIdxReg _ _ _ | .sllIdx _ _ | .sllIdxReg _ _ _ | .srlIdx _ _
  | .srlIdxReg _ _ _ | .bitIdx _ _ _ _ | .resIdx _ _ _ | .resIdxReg _ _ _ _ | .setIdx _ _ _
  | .setIdxReg _ _ _ _ => true

/-- The instruction is well-formed. -/
abbrev WellFormed (i : Instr) : Prop := i.wf = true

end Sys2Proof
end

