-- ==== Sys2Proof/Decode.lean ====
section
/-! DEFINITION. The decoder and the encoder, both written from the opcode maps of spec 30_encoding.md (R60 to R63, R65 to
R72, R74). Each decode table is a total function of the opcode byte (R69: no byte lacks a row), so a byte list is
rejected only when it ends before its instruction does. -/

namespace Sys2Proof

/-- Why a list of bytes is no instruction. -/
inductive DecodeError where
  /-- the list ends before the instruction does -/
  | truncated
  deriving DecidableEq, Repr

/-- The instruction a decode table reads, with the bytes after it. -/
abbrev DecodeResult := Except DecodeError (Instr × List Byte)

/-! ## Field value tables (R62) -/

/-- Table `r`; value 6 is the memory operand and no register. -/
def reg8Of : Nat → Option Reg8
  | 0 => some .b | 1 => some .c | 2 => some .d | 3 => some .e | 4 => some .h | 5 => some .l | 6 => none | _ => some .a

/-- Table `r` with 4 and 5 meaning `IIH` and `IIL` (R72 item 3). -/
def regPOf : Nat → Option RegP
  | 0 => some .b | 1 => some .c | 2 => some .d | 3 => some .e | 4 => some .iih | 5 => some .iil | 6 => none | _ => some .a

/-- Table `rp`. -/
def pairOf : Nat → Pair
  | 0 => .bc | 1 => .de | 2 => .hl | _ => .sp

/-- Table `rp2`. -/
def pairQOf : Nat → PairQ
  | 0 => .bc | 1 => .de | 2 => .hl | _ => .af

/-- Table `rp` where index 2 names `II` (43_arith16.md). -/
def pairXOf : Nat → PairX
  | 0 => .bc | 1 => .de | 2 => .ii | _ => .sp

/-- Table `cc`. -/
def condOf : Nat → Cond
  | 0 => .nz | 1 => .z | 2 => .nc | 3 => .c | 4 => .po | 5 => .pe | 6 => .p | _ => .m

/-- Table `alu`, operand `r`. -/
def aluReg : Nat → Reg8 → Instr
  | 0 => .addReg
  | 1 => .adcReg
  | 2 => .subReg
  | 3 => .sbcReg
  | 4 => .andReg
  | 5 => .xorReg
  | 6 => .orReg
  | _ => .cpReg

/-- Table `alu`, operand `(HL)`. -/
def aluMem : Nat → Instr
  | 0 => .addMem
  | 1 => .adcMem
  | 2 => .subMem
  | 3 => .sbcMem
  | 4 => .andMem
  | 5 => .xorMem
  | 6 => .orMem
  | _ => .cpMem

/-- Table `alu`, operand `n`. -/
def aluN : Nat → Byte → Instr
  | 0 => .addN
  | 1 => .adcN
  | 2 => .subN
  | 3 => .sbcN
  | 4 => .andN
  | 5 => .xorN
  | 6 => .orN
  | _ => .cpN

/-- Table `alu`, operand `(II+d)`. -/
def aluIdx : Nat → Idx → Byte → Instr
  | 0 => .addIdx
  | 1 => .adcIdx
  | 2 => .subIdx
  | 3 => .sbcIdx
  | 4 => .andIdx
  | 5 => .xorIdx
  | 6 => .orIdx
  | _ => .cpIdx

/-- Table `alu`, operand `IIH`. -/
def aluIih : Nat → Idx → Instr
  | 0 => .addIih
  | 1 => .adcIih
  | 2 => .subIih
  | 3 => .sbcIih
  | 4 => .andIih
  | 5 => .xorIih
  | 6 => .orIih
  | _ => .cpIih

/-- Table `alu`, operand `IIL`. -/
def aluIil : Nat → Idx → Instr
  | 0 => .addIil
  | 1 => .adcIil
  | 2 => .subIil
  | 3 => .sbcIil
  | 4 => .andIil
  | 5 => .xorIil
  | 6 => .orIil
  | _ => .cpIil

/-- Table `rot`, operand `r`. -/
def rotReg : Nat → Reg8 → Instr
  | 0 => .rlcReg
  | 1 => .rrcReg
  | 2 => .rlReg
  | 3 => .rrReg
  | 4 => .slaReg
  | 5 => .sraReg
  | 6 => .sllReg
  | _ => .srlReg

/-- Table `rot`, operand `(HL)`. -/
def rotMem : Nat → Instr
  | 0 => .rlcMem
  | 1 => .rrcMem
  | 2 => .rlMem
  | 3 => .rrMem
  | 4 => .slaMem
  | 5 => .sraMem
  | 6 => .sllMem
  | _ => .srlMem

/-- Table `rot`, operand `(II+d)`. -/
def rotIdx : Nat → Idx → Byte → Instr
  | 0 => .rlcIdx
  | 1 => .rrcIdx
  | 2 => .rlIdx
  | 3 => .rrIdx
  | 4 => .slaIdx
  | 5 => .sraIdx
  | 6 => .sllIdx
  | _ => .srlIdx

/-- Table `rot`, operand `(II+d),r`. -/
def rotIdxReg : Nat → Idx → Byte → Reg8 → Instr
  | 0 => .rlcIdxReg
  | 1 => .rrcIdxReg
  | 2 => .rlIdxReg
  | 3 => .rrIdxReg
  | 4 => .slaIdxReg
  | 5 => .sraIdxReg
  | 6 => .sllIdxReg
  | _ => .srlIdxReg

/-- Table `NP`, `x = 0`, `z = 7` (R65). -/
def accOp : Nat → Instr
  | 0 => .rlca
  | 1 => .rrca
  | 2 => .rla
  | 3 => .rra
  | 4 => .daa
  | 5 => .cpl
  | 6 => .scf
  | _ => .ccf

/-! ## Operand bytes (R63) -/

/-- The row has no operand byte. -/
def plain (i : Instr) (bs : List Byte) : DecodeResult := .ok (i, bs)

/-- The row has one operand byte (`n`, `e` or `d`). -/
def withByte (k : Byte → Instr) : List Byte → DecodeResult
  | n :: bs => .ok (k n, bs)
  | [] => .error .truncated

/-- The row has a 16-bit operand `nn`, low byte first (R63, 20_memory.md R41). -/
def withWord (k : Word → Instr) : List Byte → DecodeResult
  | l :: h :: bs => .ok (k (join h l), bs)
  | _ => .error .truncated

/-- The row has two operand bytes, `d` then `n` (R133). -/
def withTwo (k : Byte → Byte → Instr) : List Byte → DecodeResult
  | d :: n :: bs => .ok (k d n, bs)
  | _ => .error .truncated

/-! ## Table `NP` (R65) -/

/-- Table `NP`, `x = 0`. -/
def decodeNp0 (op : Byte) (bs : List Byte) : DecodeResult :=
  match opZ op with
  | 0 =>
    match opY op with
    | 0 => plain .nop bs
    | 1 => plain .exAfAf bs
    | 2 => withByte .djnz bs
    | 3 => withByte .jr bs
    | y => withByte (.jrCc (condOf (y - 4))) bs
  | 1 =>
    match opQ op with
    | 0 => withWord (.ldSsNn (pairOf (opP op))) bs
    | _ => plain (.addHlSs (pairOf (opP op))) bs
  | 2 =>
    match opY op with
    | 0 => plain .ldMemBcA bs
    | 1 => plain .ldAMemBc bs
    | 2 => plain .ldMemDeA bs
    | 3 => plain .ldAMemDe bs
    | 4 => withWord .ldMemNnHl bs
    | 5 => withWord .ldHlMemNn bs
    | 6 => withWord .ldMemNnA bs
    | _ => withWord .ldAMemNn bs
  | 3 =>
    match opQ op with
    | 0 => plain (.incSs (pairOf (opP op))) bs
    | _ => plain (.decSs (pairOf (opP op))) bs
  | 4 =>
    match reg8Of (opY op) with
    | some r => plain (.incReg r) bs
    | none => plain .incMem bs
  | 5 =>
    match reg8Of (opY op) with
    | some r => plain (.decReg r) bs
    | none => plain .decMem bs
  | 6 =>
    match reg8Of (opY op) with
    | some r => withByte (.ldRegN r) bs
    | none => withByte .ldMemN bs
  | _ => plain (accOp (opY op)) bs

/-- Table `NP`, `x = 1`. -/
def decodeNp1 (op : Byte) (bs : List Byte) : DecodeResult :=
  match reg8Of (opY op), reg8Of (opZ op) with
  | some r, some r' => plain (.ldRegReg r r') bs
  | some r, none => plain (.ldRegMem r) bs
  | none, some r => plain (.ldMemReg r) bs
  | none, none => plain .halt bs

/-- Table `NP`, `x = 2`. -/
def decodeNp2 (op : Byte) (bs : List Byte) : DecodeResult :=
  match reg8Of (opZ op) with
  | some r => plain (aluReg (opY op) r) bs
  | none => plain (aluMem (opY op)) bs

/-- Table `NP`, `x = 3`. -/
def decodeNp3 (op : Byte) (bs : List Byte) : DecodeResult :=
  match opZ op with
  | 0 => plain (.retCc (condOf (opY op))) bs
  | 1 =>
    match opQ op with
    | 0 => plain (.popQq (pairQOf (opP op))) bs
    | _ =>
      match opP op with
      | 0 => plain .ret bs
      | 1 => plain .exx bs
      | 2 => plain .jpHl bs
      | _ => plain .ldSpHl bs
  | 2 => withWord (.jpCc (condOf (opY op))) bs
  | 3 =>
    match opY op with
    | 0 => withWord .jp bs
    | 1 => plain .prefixCb bs
    | 2 => withByte .outNA bs
    | 3 => withByte .inAN bs
    | 4 => plain .exSpHl bs
    | 5 => plain .exDeHl bs
    | 6 => plain .di bs
    | _ => plain .ei bs
  | 4 => withWord (.callCc (condOf (opY op))) bs
  | 5 =>
    match opQ op with
    | 0 => plain (.pushQq (pairQOf (opP op))) bs
    | _ =>
      match opP op with
      | 0 => withWord .call bs
      | 1 => plain .prefixDd bs
      | 2 => plain .prefixEd bs
      | _ => plain .prefixFd bs
  | 6 => withByte (aluN (opY op)) bs
  | _ => plain (.rst (opY3 op)) bs

/-- Table `NP` (R65). -/
def decodeNp (op : Byte) (bs : List Byte) : DecodeResult :=
  match opX op with
  | 0 => decodeNp0 op bs
  | 1 => decodeNp1 op bs
  | 2 => decodeNp2 op bs
  | _ => decodeNp3 op bs

/-! ## Table `CB` (R66) -/

/-- Table `CB`. -/
def decodeCb (op : Byte) (bs : List Byte) : DecodeResult :=
  match opX op, reg8Of (opZ op) with
  | 0, some r => plain (rotReg (opY op) r) bs
  | 0, none => plain (rotMem (opY op)) bs
  | 1, some r => plain (.bitReg (opY3 op) r) bs
  | 1, none => plain (.bitMem (opY3 op)) bs
  | 2, some r => plain (.resReg (opY3 op) r) bs
  | 2, none => plain (.resMem (opY3 op)) bs
  | _, some r => plain (.setReg (opY3 op) r) bs
  | _, none => plain (.setMem (opY3 op)) bs

/-! ## Table `ED` (R67, R68) -/

/-- Table `ED`, `x = 1`. -/
def decodeEd1 (op : Byte) (bs : List Byte) : DecodeResult :=
  match opZ op with
  | 0 =>
    match reg8Of (opY op) with
    | some r => plain (.inRegC r) bs
    | none => plain .inFC bs
  | 1 =>
    match reg8Of (opY op) with
    | some r => plain (.outCReg r) bs
    | none => plain .outCZero bs
  | 2 =>
    match opQ op with
    | 0 => plain (.sbcHlSs (pairOf (opP op))) bs
    | _ => plain (.adcHlSs (pairOf (opP op))) bs
  | 3 =>
    match opQ op with
    | 0 => withWord (fun nn => .ldMemNnSs nn (pairOf (opP op))) bs
    | _ => withWord (.ldSsMemNn (pairOf (opP op))) bs
  | 4 => plain (.neg (opY3 op)) bs
  | 5 =>
    match opY op with
    | 1 => plain .reti bs
    | _ => plain (.retn (opY3 op)) bs
  | 6 =>
    match opY op with
    | 0 | 1 | 4 | 5 => plain (.im0 (opY3 op)) bs
    | 2 | 6 => plain (.im1 (opY3 op)) bs
    | _ => plain (.im2 (opY3 op)) bs
  | _ =>
    match opY op with
    | 0 => plain .ldIA bs
    | 1 => plain .ldRA bs
    | 2 => plain .ldAI bs
    | 3 => plain .ldAR bs
    | 4 => plain .rrd bs
    | 5 => plain .rld bs
    | _ => plain (.nopEd op) bs

/-- Table `ED`, `x = 2`: the block instructions `bli[y][z]` (R62), else a hole. -/
def decodeEd2 (op : Byte) (bs : List Byte) : DecodeResult :=
  match opY op, opZ op with
  | 4, 0 => plain .ldi bs
  | 4, 1 => plain .cpi bs
  | 4, 2 => plain .ini bs
  | 4, 3 => plain .outi bs
  | 5, 0 => plain .ldd bs
  | 5, 1 => plain .cpd bs
  | 5, 2 => plain .ind bs
  | 5, 3 => plain .outd bs
  | 6, 0 => plain .ldir bs
  | 6, 1 => plain .cpir bs
  | 6, 2 => plain .inir bs
  | 6, 3 => plain .otir bs
  | 7, 0 => plain .lddr bs
  | 7, 1 => plain .cpdr bs
  | 7, 2 => plain .indr bs
  | 7, 3 => plain .otdr bs
  | _, _ => plain (.nopEd op) bs

/-- Table `ED`; `x = 0` and `x = 3` are holes (R68). -/
def decodeEd (op : Byte) (bs : List Byte) : DecodeResult :=
  match opX op with
  | 1 => decodeEd1 op bs
  | 2 => decodeEd2 op bs
  | _ => plain (.nopEd op) bs

/-! ## Tables `DD` and `FD` (R71, R72) -/

/-- R72 item 5: the entry is the `NP` entry unchanged. -/
def decodeKept (ii : Idx) (op : Byte) (bs : List Byte) : DecodeResult :=
  match decodeNp op bs with
  | .ok (i, rest) => .ok (.npUnchanged ii i, rest)
  | .error err => .error err

/-- Tables `DD`/`FD`, `x = 0`. -/
def decodeXy0 (ii : Idx) (op : Byte) (bs : List Byte) : DecodeResult :=
  match opY op, opZ op with
  | 1, 1 | 3, 1 | 5, 1 | 7, 1 => plain (.addIiPp ii (pairXOf (opP op))) bs
  | 4, 1 => withWord (.ldIiNn ii) bs
  | 4, 2 => withWord (fun nn => .ldMemNnIi nn ii) bs
  | 5, 2 => withWord (.ldIiMemNn ii) bs
  | 4, 3 => plain (.incIi ii) bs
  | 5, 3 => plain (.decIi ii) bs
  | 4, 4 => plain (.incIih ii) bs
  | 4, 5 => plain (.decIih ii) bs
  | 4, 6 => withByte (.ldIihN ii) bs
  | 5, 4 => plain (.incIil ii) bs
  | 5, 5 => plain (.decIil ii) bs
  | 5, 6 => withByte (.ldIilN ii) bs
  | 6, 4 => withByte (.incIdx ii) bs
  | 6, 5 => withByte (.decIdx ii) bs
  | 6, 6 => withTwo (.ldIdxN ii) bs
  | _, _ => decodeKept ii op bs

/-- Tables `DD`/`FD`, `x = 1`: `(II+d)` forms keep the real `H`, `L` (R72 item 1); register forms with `IIH` or `IIL`
are `LD p,p'` (item 3); the others and `HALT` are kept (item 5). -/
def decodeXy1 (ii : Idx) (op : Byte) (bs : List Byte) : DecodeResult :=
  match reg8Of (opY op), reg8Of (opZ op) with
  | some r, none => withByte (.ldRegIdx r ii) bs
  | none, some r => withByte (fun d => .ldIdxReg ii d r) bs
  | none, none => decodeKept ii op bs
  | some _, some _ =>
    match regPOf (opY op), regPOf (opZ op) with
    | some p, some p' => if p.isHalf || p'.isHalf then plain (.ldPP ii p p') bs else decodeKept ii op bs
    | _, _ => decodeKept ii op bs

/-- Tables `DD`/`FD`, `x = 2`. -/
def decodeXy2 (ii : Idx) (op : Byte) (bs : List Byte) : DecodeResult :=
  match opZ op with
  | 4 => plain (aluIih (opY op) ii) bs
  | 5 => plain (aluIil (opY op) ii) bs
  | 6 => withByte (aluIdx (opY op) ii) bs
  | _ => decodeKept ii op bs

/-- Tables `DD`/`FD`, `x = 3`. -/
def decodeXy3 (ii : Idx) (op : Byte) (bs : List Byte) : DecodeResult :=
  match opY op, opZ op with
  | 4, 1 => plain (.popIi ii) bs
  | 5, 1 => plain (.jpIi ii) bs
  | 7, 1 => plain (.ldSpIi ii) bs
  | 1, 3 => plain (.prefixCbXy ii) bs
  | 4, 3 => plain (.exSpIi ii) bs
  | 4, 5 => plain (.pushIi ii) bs
  | 3, 5 => plain (.prefixDdXy ii) bs
  | 5, 5 => plain (.prefixEdXy ii) bs
  | 7, 5 => plain (.prefixFdXy ii) bs
  | _, _ => decodeKept ii op bs

/-- Table `DD` (`ii = IX`) or `FD` (`ii = IY`) (R71, R72). -/
def decodeXy (ii : Idx) (op : Byte) (bs : List Byte) : DecodeResult :=
  match opX op with
  | 0 => decodeXy0 ii op bs
  | 1 => decodeXy1 ii op bs
  | 2 => decodeXy2 ii op bs
  | _ => decodeXy3 ii op bs

/-! ## Tables `DDCB` and `FDCB` (R74) -/

/-- Table `DDCB` (`ii = IX`) or `FDCB` (`ii = IY`): the displacement `d` comes before the opcode byte. -/
def decodeXyCb (ii : Idx) (d op : Byte) (bs : List Byte) : DecodeResult :=
  match opX op, reg8Of (opZ op) with
  | 0, some r => plain (rotIdxReg (opY op) ii d r) bs
  | 0, none => plain (rotIdx (opY op) ii d) bs
  | 1, _ => plain (.bitIdx ii d (opY3 op) (opZ3 op)) bs
  | 2, some r => plain (.resIdxReg ii d (opY3 op) r) bs
  | 2, none => plain (.resIdx ii d (opY3 op)) bs
  | _, some r => plain (.setIdxReg ii d (opY3 op) r) bs
  | _, none => plain (.setIdx ii d (opY3 op)) bs

/-! ## One table, and a whole byte sequence -/

/-- The instruction that a decode table reads from the bytes one dispatch iteration fetches (40_dispatch.md R94 to R97):
the opcode byte and its operand bytes, or `d` and the opcode byte in tables `DDCB`/`FDCB`. -/
def decodeIn : Table → List Byte → DecodeResult
  | .np, op :: bs => decodeNp op bs
  | .cb, op :: bs => decodeCb op bs
  | .ed, op :: bs => decodeEd op bs
  | .dd, op :: bs => decodeXy .ix op bs
  | .fd, op :: bs => decodeXy .iy op bs
  | .ddcb, d :: op :: bs => decodeXyCb .ix d op bs
  | .fdcb, d :: op :: bs => decodeXyCb .iy d op bs
  | _, _ => .error .truncated

/-- The table in which decoding goes on after a byte, when that byte is a prefix of the current table (R70, R71). -/
def nextTable (t : Table) (op : Byte) : Option Table :=
  match t with
  | .np =>
    if op = 0xCB#8 then some .cb else if op = 0xED#8 then some .ed
    else if op = 0xDD#8 then some .dd else if op = 0xFD#8 then some .fd else none
  | .dd =>
    if op = 0xCB#8 then some .ddcb else if op = 0xED#8 then some .ed
    else if op = 0xDD#8 then some .dd else if op = 0xFD#8 then some .fd else none
  | .fd =>
    if op = 0xCB#8 then some .fdcb else if op = 0xED#8 then some .ed
    else if op = 0xDD#8 then some .dd else if op = 0xFD#8 then some .fd else none
  | .cb | .ed | .ddcb | .fdcb => none

/-- Decode a whole byte sequence that starts in table `t`: prefix bytes move to their tables, then one table entry is
read (R60, R71). The answer is the instruction that completes and the bytes after it. -/
def decodeFrom : Table → List Byte → DecodeResult
  | _, [] => .error .truncated
  | t, op :: bs =>
    match nextTable t op with
    | some t' => decodeFrom t' bs
    | none => decodeIn t (op :: bs)

/-- Decode a whole byte sequence from an instruction boundary. -/
def decode (bs : List Byte) : DecodeResult := decodeFrom .np bs

/-! ## The encoder -/

/-- Field value of an 8-bit register (R62 table `r`). -/
def Reg8.code : Reg8 → Nat
  | .b => 0 | .c => 1 | .d => 2 | .e => 3 | .h => 4 | .l => 5 | .a => 7

/-- Field value of an operand `p` (R134). -/
def RegP.code : RegP → Nat
  | .b => 0 | .c => 1 | .d => 2 | .e => 3 | .iih => 4 | .iil => 5 | .a => 7

/-- Field value of a pair (R62 table `rp`). -/
def Pair.code : Pair → Nat
  | .bc => 0 | .de => 1 | .hl => 2 | .sp => 3

/-- Field value of a pair (R62 table `rp2`). -/
def PairQ.code : PairQ → Nat
  | .bc => 0 | .de => 1 | .hl => 2 | .af => 3

/-- Field value of a pair of `ADD II,pp`. -/
def PairX.code : PairX → Nat
  | .bc => 0 | .de => 1 | .ii => 2 | .sp => 3

/-- Field value of a condition (R62 table `cc`). -/
def Cond.code : Cond → Nat
  | .nz => 0 | .z => 1 | .nc => 2 | .c => 3 | .po => 4 | .pe => 5 | .p => 6 | .m => 7

/-- The table `DD` or `FD` of an index register. -/
def Idx.table : Idx → Table
  | .ix => .dd | .iy => .fd

/-- The table `DDCB` or `FDCB` of an index register. -/
def Idx.tableCb : Idx → Table
  | .ix => .ddcb | .iy => .fdcb

/-- The bytes that the instruction's own dispatch iteration fetches: the opcode byte and the operand bytes (R60, R63), or
`d` and the opcode byte in tables `DDCB`/`FDCB` (R74). -/
def encodeEntry : Instr → List Byte
  -- table NP (R65)
  | .nop => [0x00#8]
  | .exAfAf => [0x08#8]
  | .djnz e => [0x10#8, e]
  | .jr e => [0x18#8, e]
  | .jrCc cc e => [opc 0 (cc.code + 4) 0, e]
  | .ldSsNn ss nn => [opcPQ 0 ss.code 0 1, lo nn, hi nn]
  | .addHlSs ss => [opcPQ 0 ss.code 1 1]
  | .ldMemBcA => [0x02#8]
  | .ldMemDeA => [0x12#8]
  | .ldMemNnHl nn => [0x22#8, lo nn, hi nn]
  | .ldMemNnA nn => [0x32#8, lo nn, hi nn]
  | .ldAMemBc => [0x0A#8]
  | .ldAMemDe => [0x1A#8]
  | .ldHlMemNn nn => [0x2A#8, lo nn, hi nn]
  | .ldAMemNn nn => [0x3A#8, lo nn, hi nn]
  | .incSs ss => [opcPQ 0 ss.code 0 3]
  | .decSs ss => [opcPQ 0 ss.code 1 3]
  | .incReg r => [opc 0 r.code 4]
  | .incMem => [0x34#8]
  | .decReg r => [opc 0 r.code 5]
  | .decMem => [0x35#8]
  | .ldRegN r n => [opc 0 r.code 6, n]
  | .ldMemN n => [0x36#8, n]
  | .rlca => [0x07#8]
  | .rrca => [0x0F#8]
  | .rla => [0x17#8]
  | .rra => [0x1F#8]
  | .daa => [0x27#8]
  | .cpl => [0x2F#8]
  | .scf => [0x37#8]
  | .ccf => [0x3F#8]
  | .ldRegReg r r' => [opc 1 r.code r'.code]
  | .ldRegMem r => [opc 1 r.code 6]
  | .ldMemReg r => [opc 1 6 r.code]
  | .halt => [0x76#8]
  | .addReg r => [opc 2 0 r.code]
  | .addMem => [opc 2 0 6]
  | .addN n => [opc 3 0 6, n]
  | .adcReg r => [opc 2 1 r.code]
  | .adcMem => [opc 2 1 6]
  | .adcN n => [opc 3 1 6, n]
  | .subReg r => [opc 2 2 r.code]
  | .subMem => [opc 2 2 6]
  | .subN n => [opc 3 2 6, n]
  | .sbcReg r => [opc 2 3 r.code]
  | .sbcMem => [opc 2 3 6]
  | .sbcN n => [opc 3 3 6, n]
  | .andReg r => [opc 2 4 r.code]
  | .andMem => [opc 2 4 6]
  | .andN n => [opc 3 4 6, n]
  | .xorReg r => [opc 2 5 r.code]
  | .xorMem => [opc 2 5 6]
  | .xorN n => [opc 3 5 6, n]
  | .orReg r => [opc 2 6 r.code]
  | .orMem => [opc 2 6 6]
  | .orN n => [opc 3 6 6, n]
  | .cpReg r => [opc 2 7 r.code]
  | .cpMem => [opc 2 7 6]
  | .cpN n => [opc 3 7 6, n]
  | .retCc cc => [opc 3 cc.code 0]
  | .popQq qq => [opcPQ 3 qq.code 0 1]
  | .ret => [0xC9#8]
  | .exx => [0xD9#8]
  | .jpHl => [0xE9#8]
  | .ldSpHl => [0xF9#8]
  | .jpCc cc nn => [opc 3 cc.code 2, lo nn, hi nn]
  | .jp nn => [0xC3#8, lo nn, hi nn]
  | .prefixCb => [0xCB#8]
  | .outNA n => [0xD3#8, n]
  | .inAN n => [0xDB#8, n]
  | .exSpHl => [0xE3#8]
  | .exDeHl => [0xEB#8]
  | .di => [0xF3#8]
  | .ei => [0xFB#8]
  | .callCc cc nn => [opc 3 cc.code 4, lo nn, hi nn]
  | .pushQq qq => [opcPQ 3 qq.code 0 5]
  | .call nn => [0xCD#8, lo nn, hi nn]
  | .prefixDd => [0xDD#8]
  | .prefixEd => [0xED#8]
  | .prefixFd => [0xFD#8]
  | .rst t => [opc 3 t.toNat 7]
  -- table CB (R66)
  | .rlcReg r => [opc 0 0 r.code]
  | .rlcMem => [opc 0 0 6]
  | .rrcReg r => [opc 0 1 r.code]
  | .rrcMem => [opc 0 1 6]
  | .rlReg r => [opc 0 2 r.code]
  | .rlMem => [opc 0 2 6]
  | .rrReg r => [opc 0 3 r.code]
  | .rrMem => [opc 0 3 6]
  | .slaReg r => [opc 0 4 r.code]
  | .slaMem => [opc 0 4 6]
  | .sraReg r => [opc 0 5 r.code]
  | .sraMem => [opc 0 5 6]
  | .sllReg r => [opc 0 6 r.code]
  | .sllMem => [opc 0 6 6]
  | .srlReg r => [opc 0 7 r.code]
  | .srlMem => [opc 0 7 6]
  | .bitReg b r => [opc 1 b.toNat r.code]
  | .bitMem b => [opc 1 b.toNat 6]
  | .resReg b r => [opc 2 b.toNat r.code]
  | .resMem b => [opc 2 b.toNat 6]
  | .setReg b r => [opc 3 b.toNat r.code]
  | .setMem b => [opc 3 b.toNat 6]
  -- table ED (R67, R68)
  | .inRegC r => [opc 1 r.code 0]
  | .inFC => [0x70#8]
  | .outCReg r => [opc 1 r.code 1]
  | .outCZero => [0x71#8]
  | .sbcHlSs ss => [opcPQ 1 ss.code 0 2]
  | .adcHlSs ss => [opcPQ 1 ss.code 1 2]
  | .ldMemNnSs nn ss => [opcPQ 1 ss.code 0 3, lo nn, hi nn]
  | .ldSsMemNn ss nn => [opcPQ 1 ss.code 1 3, lo nn, hi nn]
  | .neg y => [opc 1 y.toNat 4]
  | .retn y => [opc 1 y.toNat 5]
  | .reti => [0x4D#8]
  | .im0 y => [opc 1 y.toNat 6]
  | .im1 y => [opc 1 y.toNat 6]
  | .im2 y => [opc 1 y.toNat 6]
  | .ldIA => [0x47#8]
  | .ldRA => [0x4F#8]
  | .ldAI => [0x57#8]
  | .ldAR => [0x5F#8]
  | .rrd => [0x67#8]
  | .rld => [0x6F#8]
  | .ldi => [0xA0#8]
  | .cpi => [0xA1#8]
  | .ini => [0xA2#8]
  | .outi => [0xA3#8]
  | .ldd => [0xA8#8]
  | .cpd => [0xA9#8]
  | .ind => [0xAA#8]
  | .outd => [0xAB#8]
  | .ldir => [0xB0#8]
  | .cpir => [0xB1#8]
  | .inir => [0xB2#8]
  | .otir => [0xB3#8]
  | .lddr => [0xB8#8]
  | .cpdr => [0xB9#8]
  | .indr => [0xBA#8]
  | .otdr => [0xBB#8]
  | .nopEd op => [op]
  -- tables DD and FD (R71, R72)
  | .incIdx _ d => [0x34#8, d]
  | .decIdx _ d => [0x35#8, d]
  | .ldIdxN _ d n => [0x36#8, d, n]
  | .ldRegIdx r _ d => [opc 1 r.code 6, d]
  | .ldIdxReg _ d r => [opc 1 6 r.code, d]
  | .addIdx _ d => [opc 2 0 6, d]
  | .adcIdx _ d => [opc 2 1 6, d]
  | .subIdx _ d => [opc 2 2 6, d]
  | .sbcIdx _ d => [opc 2 3 6, d]
  | .andIdx _ d => [opc 2 4 6, d]
  | .xorIdx _ d => [opc 2 5 6, d]
  | .orIdx _ d => [opc 2 6 6, d]
  | .cpIdx _ d => [opc 2 7 6, d]
  | .addIiPp _ pp => [opcPQ 0 pp.code 1 1]
  | .ldIiNn _ nn => [0x21#8, lo nn, hi nn]
  | .ldMemNnIi nn _ => [0x22#8, lo nn, hi nn]
  | .ldIiMemNn _ nn => [0x2A#8, lo nn, hi nn]
  | .incIi _ => [0x23#8]
  | .decIi _ => [0x2B#8]
  | .popIi _ => [0xE1#8]
  | .exSpIi _ => [0xE3#8]
  | .pushIi _ => [0xE5#8]
  | .jpIi _ => [0xE9#8]
  | .ldSpIi _ => [0xF9#8]
  | .incIih _ => [0x24#8]
  | .decIih _ => [0x25#8]
  | .ldIihN _ n => [0x26#8, n]
  | .incIil _ => [0x2C#8]
  | .decIil _ => [0x2D#8]
  | .ldIilN _ n => [0x2E#8, n]
  | .ldPP _ p p' => [opc 1 p.code p'.code]
  | .addIih _ => [opc 2 0 4]
  | .addIil _ => [opc 2 0 5]
  | .adcIih _ => [opc 2 1 4]
  | .adcIil _ => [opc 2 1 5]
  | .subIih _ => [opc 2 2 4]
  | .subIil _ => [opc 2 2 5]
  | .sbcIih _ => [opc 2 3 4]
  | .sbcIil _ => [opc 2 3 5]
  | .andIih _ => [opc 2 4 4]
  | .andIil _ => [opc 2 4 5]
  | .xorIih _ => [opc 2 5 4]
  | .xorIil _ => [opc 2 5 5]
  | .orIih _ => [opc 2 6 4]
  | .orIil _ => [opc 2 6 5]
  | .cpIih _ => [opc 2 7 4]
  | .cpIil _ => [opc 2 7 5]
  | .prefixCbXy _ => [0xCB#8]
  | .prefixDdXy _ => [0xDD#8]
  | .prefixFdXy _ => [0xFD#8]
  | .prefixEdXy _ => [0xED#8]
  | .npUnchanged _ i => encodeEntry i
  -- tables DDCB and FDCB (R74)
  | .rlcIdx _ d => [d, opc 0 0 6]
  | .rlcIdxReg _ d r => [d, opc 0 0 r.code]
  | .rrcIdx _ d => [d, opc 0 1 6]
  | .rrcIdxReg _ d r => [d, opc 0 1 r.code]
  | .rlIdx _ d => [d, opc 0 2 6]
  | .rlIdxReg _ d r => [d, opc 0 2 r.code]
  | .rrIdx _ d => [d, opc 0 3 6]
  | .rrIdxReg _ d r => [d, opc 0 3 r.code]
  | .slaIdx _ d => [d, opc 0 4 6]
  | .slaIdxReg _ d r => [d, opc 0 4 r.code]
  | .sraIdx _ d => [d, opc 0 5 6]
  | .sraIdxReg _ d r => [d, opc 0 5 r.code]
  | .sllIdx _ d => [d, opc 0 6 6]
  | .sllIdxReg _ d r => [d, opc 0 6 r.code]
  | .srlIdx _ d => [d, opc 0 7 6]
  | .srlIdxReg _ d r => [d, opc 0 7 r.code]
  | .bitIdx _ d b z => [d, opc 1 b.toNat z.toNat]
  | .resIdx _ d b => [d, opc 2 b.toNat 6]
  | .resIdxReg _ d b r => [d, opc 2 b.toNat r.code]
  | .setIdx _ d b => [d, opc 3 b.toNat 6]
  | .setIdxReg _ d b r => [d, opc 3 b.toNat r.code]

/-- The decode table that holds the instruction's row. -/
def Instr.table : Instr → Table
  | .nop | .exAfAf | .djnz _ | .jr _ | .jrCc _ _ | .ldSsNn _ _ | .addHlSs _ | .ldMemBcA | .ldMemDeA
  | .ldMemNnHl _ | .ldMemNnA _ | .ldAMemBc | .ldAMemDe | .ldHlMemNn _ | .ldAMemNn _ | .incSs _ | .decSs _
  | .incReg _ | .incMem | .decReg _ | .decMem | .ldRegN _ _ | .ldMemN _ | .rlca | .rrca | .rla | .rra | .daa
  | .cpl | .scf | .ccf | .ldRegReg _ _ | .ldRegMem _ | .ldMemReg _ | .halt | .addReg _ | .addMem | .addN _
  | .adcReg _ | .adcMem | .adcN _ | .subReg _ | .subMem | .subN _ | .sbcReg _ | .sbcMem | .sbcN _ | .andReg _
  | .andMem | .andN _ | .xorReg _ | .xorMem | .xorN _ | .orReg _ | .orMem | .orN _ | .cpReg _ | .cpMem | .cpN _
  | .retCc _ | .popQq _ | .ret | .exx | .jpHl | .ldSpHl | .jpCc _ _ | .jp _ | .prefixCb | .outNA _ | .inAN _
  | .exSpHl | .exDeHl | .di | .ei | .callCc _ _ | .pushQq _ | .call _ | .prefixDd | .prefixEd | .prefixFd
  | .rst _ => .np
  | .rlcReg _ | .rlcMem | .rrcReg _ | .rrcMem | .rlReg _ | .rlMem | .rrReg _ | .rrMem | .slaReg _ | .slaMem
  | .sraReg _ | .sraMem | .sllReg _ | .sllMem | .srlReg _ | .srlMem | .bitReg _ _ | .bitMem _ | .resReg _ _
  | .resMem _ | .setReg _ _ | .setMem _ => .cb
  | .inRegC _ | .inFC | .outCReg _ | .outCZero | .sbcHlSs _ | .adcHlSs _ | .ldMemNnSs _ _ | .ldSsMemNn _ _
  | .neg _ | .retn _ | .reti | .im0 _ | .im1 _ | .im2 _ | .ldIA | .ldRA | .ldAI | .ldAR | .rrd | .rld | .ldi
  | .cpi | .ini | .outi | .ldd | .cpd | .ind | .outd | .ldir | .cpir | .inir | .otir | .lddr | .cpdr | .indr
  | .otdr | .nopEd _ => .ed
  | .incIdx ii _ | .decIdx ii _ | .ldIdxN ii _ _ | .ldRegIdx _ ii _ | .ldIdxReg ii _ _ | .addIdx ii _
  | .adcIdx ii _ | .subIdx ii _ | .sbcIdx ii _ | .andIdx ii _ | .xorIdx ii _ | .orIdx ii _ | .cpIdx ii _
  | .addIiPp ii _ | .ldIiNn ii _ | .ldMemNnIi _ ii | .ldIiMemNn ii _ | .incIi ii | .decIi ii | .popIi ii
  | .exSpIi ii | .pushIi ii | .jpIi ii | .ldSpIi ii | .incIih ii | .decIih ii | .ldIihN ii _ | .incIil ii
  | .decIil ii | .ldIilN ii _ | .ldPP ii _ _ | .addIih ii | .addIil ii | .adcIih ii | .adcIil ii | .subIih ii
  | .subIil ii | .sbcIih ii | .sbcIil ii | .andIih ii | .andIil ii | .xorIih ii | .xorIil ii | .orIih ii
  | .orIil ii | .cpIih ii | .cpIil ii | .prefixCbXy ii | .prefixDdXy ii | .prefixFdXy ii | .prefixEdXy ii
  | .npUnchanged ii _ => ii.table
  | .rlcIdx ii _ | .rlcIdxReg ii _ _ | .rrcIdx ii _ | .rrcIdxReg ii _ _ | .rlIdx ii _ | .rlIdxReg ii _ _
  | .rrIdx ii _ | .rrIdxReg ii _ _ | .slaIdx ii _ | .slaIdxReg ii _ _ | .sraIdx ii _ | .sraIdxReg ii _ _
  | .sllIdx ii _ | .sllIdxReg ii _ _ | .srlIdx ii _ | .srlIdxReg ii _ _ | .bitIdx ii _ _ _ | .resIdx ii _ _
  | .resIdxReg ii _ _ _ | .setIdx ii _ _ | .setIdxReg ii _ _ _ => ii.tableCb

/-- The prefix bytes that lead from an instruction boundary to a decode table (R70, R71). -/
def Table.prefixBytes : Table → List Byte
  | .np => []
  | .cb => [0xCB#8]
  | .ed => [0xED#8]
  | .dd => [0xDD#8]
  | .fd => [0xFD#8]
  | .ddcb => [0xDD#8, 0xCB#8]
  | .fdcb => [0xFD#8, 0xCB#8]

/-- The bytes of an instruction, its format's prefix bytes first (R60). -/
def encode (i : Instr) : List Byte := i.table.prefixBytes ++ encodeEntry i

/-! ## Words numbered as the opcode table numbers them -/

/-- The low `n` bytes of a number, the least significant first. -/
def bytesOf : Nat → Nat → List Byte
  | 0, _ => []
  | n + 1, w => BitVec.ofNat 8 w :: bytesOf n (w / 256)

/-- The prefix bytes at the head of the first `n` bytes that lead on to another table, while a further byte of those `n`
follows: the table they lead to and how many they are. A lone prefix byte is a row of its own (R78). -/
def prefixWalk : Nat → Table → List Byte → Table × Nat
  | n + 2, t, op :: bs =>
    match nextTable t op with
    | some t' => let (t'', k) := prefixWalk (n + 1) t' bs; (t'', k + 1)
    | none => (t, 0)
  | _, t, _ => (t, 0)

/-- The bytes that a table word of `nbits` bits stands for: bits 7..0 are the first byte, and so on; operand bytes
beyond `nbits` are zero (at least four bytes in all, the longest instruction, R79). -/
def tableWordBytes (nbits w : Nat) : List Byte := bytesOf (max 4 ((nbits + 7) / 8)) (w % 2 ^ nbits)

/-- The instruction the decoder reads from a word numbered as spec/opcode_table.json numbers it. -/
def decodeTableWord (nbits w : Nat) : Option Instr :=
  let bs := tableWordBytes nbits w
  let (t, k) := prefixWalk ((nbits + 7) / 8) .np bs
  match decodeIn t (bs.drop k ++ [0x00#8, 0x00#8, 0x00#8]) with
  | .ok (i, _) => some i
  | .error _ => none

end Sys2Proof
end

