-- ==== Sys2Proof/Config.lean ====
section
/-! DEFINITION. What the spec leaves open and the model fixes or leaves free: the value unlisted memory reads as,
and the free values (opaque constants without a body, so that no proof can see what they are). -/

namespace Sys2Proof

/-- What a port access does to the maskable request line `ReqMi` (00_scope.md R6, 20_memory.md R47: a port access may
change what the request functions return). -/
inductive MiChange where
  /-- the line keeps its level -/
  | keep
  /-- the line is no longer asserted -/
  | drop
  /-- the line is asserted with this byte on the data bus -/
  | raise (v : Byte)
  deriving DecidableEq, Repr, Inhabited

/-- How one port access changes the platform (R6, D17): whether it latches a new non-maskable request, what it does to the
maskable line, and the bytes it changes in memory, the first store first.
DESIGN CHOICE (log 24), unsafe: D17 lets an access change the platform in any way; here it leaves the reactions supplied for
later accesses as they are, but for the one it uses up. -/
structure IoEffect where
  latchNmi : Bool
  mi : MiChange
  stores : List (Word × Byte)
  deriving DecidableEq, Repr, Inhabited

/-- The platform's reaction to one `IoRead` (R6): of this port (`none`: of any port), the byte answered, the change. -/
structure ReadReply where
  port : Option Word
  data : Byte
  effect : IoEffect
  deriving DecidableEq, Repr, Inhabited

/-- The platform's reaction to one `IoWrite` (R6): to this port (`none`: to any port), of this byte (`none`: of any byte), the
change. -/
structure WriteReply where
  port : Option Word
  data : Option Byte
  effect : IoEffect
  deriving DecidableEq, Repr, Inhabited

/-- One port access as the platform saw it (R6 `IoRead`, `IoWrite`; FlatPlatform's log). -/
inductive IoEvent where
  /-- `IoRead(port)` answered `data` -/
  | read (port : Word) (data : Byte)
  /-- `IoWrite(port, data)` -/
  | write (port : Word) (data : Byte)
  deriving DecidableEq, Repr

namespace Config

/-- What a memory cell that nothing has written reads as.
DESIGN CHOICE (log 2), unsafe: the spec leaves the memory image to the platform (R32, R50). -/
def unwritten : Byte := 0x00#8

/-- The answer and the change of the platform at its `n`-th port access, if that reads `port` and no reply is supplied for it.
It may depend on all the accesses logged before, bytes written included. A free value (R6, R47, D17; log 4), safe: nothing
constrains it. -/
opaque freeRead (n : Nat) (past : List IoEvent) (port : Word) : Byte × IoEffect

/-- The change of the platform at its `n`-th port access, if that writes `data` to `port` and no reply is supplied for it.
It may depend on all the accesses logged before. A free value (R6, R47, D17; log 4), safe: nothing constrains it. -/
opaque freeWrite (n : Nat) (past : List IoEvent) (port : Word) (data : Byte) : IoEffect

/-- The bits `Y` and `X` of `F` after the `n`-th execution of `BIT b,(HL)`.
A free value (45_bit.md R271, D8 `BitHLYX`; log 6), safe: nothing constrains it. -/
opaque bitHlYX (n : Nat) : Bool × Bool

end Config

end Sys2Proof
end

