-- ==== Sys2Proof/Machine/State.lean ====
section
/-! DEFINITION. The state of the machine as plain data: the core's state (spec 10_state.md), the platform value `E`
(00_scope.md R6) as plain data, and three fields of the model's own. The reasons a step can stop. -/

namespace Sys2Proof.Machine

/-- `interrupt_mode` (R23). -/
inductive IntMode where
  | im0 | im1 | im2
  deriving DecidableEq, Repr

/-- The decode state `prefix` (R25). -/
inductive Pfx where
  | noPrefix | cb | ed | dd | fd | ddcb | fdcb | halt
  deriving DecidableEq, Repr

/-- `interrupt_status` (R26): whether the dispatch loop may look at the interrupt source. -/
inductive IntStatus where
  | noCheck
  | check
  /-- an `EI` completed when `cycles` read `n` -/
  | ei (n : Nat)
  deriving DecidableEq, Repr

/-- The fatal causes (60_exceptions.md R382): the machine stops, and records nothing (R381). -/
inductive Fault where
  /-- `Im0Service`: raised by the interrupt check when a maskable interrupt is accepted in mode 0 (R392). Safe: the
  spec itself stops there. -/
  | im0Service
  /-- `InvalidDecodeState`: raised by `step` when the decoder finds no row for the bytes fetched, and by the meaning of
  a kept `NP` entry when its term is none of table `NP`. Unreachable from memory bytes (R69, R382; log 14). Safe: it
  stops where nothing is defined. -/
  | invalidDecodeState
  deriving DecidableEq, Repr

/-- Why the model gives an instruction no meaning. -/
inductive Refusal where
  /-- raised by `exec` in the arm of an instruction without a meaning, by its mnemonic in spec/opcode_table.json. Safe: the
  model stops. No arm raises it: every row has its meaning. -/
  | notModelled (mnemonic : String)
  deriving DecidableEq, Repr

/-- The memory's contents: cells by rising address, none of which holds `Config.unwritten`. -/
abbrev Memory := List Host.Cell

/-- The canonical form from address `k` on: addresses at least `k`, strictly rising, within the 65,536 cells of the address
space (R33), and no entry that an unlisted cell would read as. -/
def Memory.wfFrom : Nat → Memory → Bool
  | _, [] => true
  | k, (a, v) :: m => decide (k ≤ a) && decide (a < 65536) && v != Config.unwritten && Memory.wfFrom (a + 1) m

/-- The memory is in canonical form. -/
def Memory.wf (m : Memory) : Bool := Memory.wfFrom 0 m

/-- The state. The fields down to `cycles` are the core's (10_state.md section 1); the fields `mem` to `reqMi` are the
platform value `E` (R6), which reset does not touch (R32); the last three are the model's own (logs 4, 6, 7). -/
structure State where
  /-- main register set (R10 to R12): accumulator and flags -/
  af : Word
  bc : Word
  de : Word
  hl : Word
  /-- shadow register set (R13) -/
  af' : Word
  bc' : Word
  de' : Word
  hl' : Word
  /-- index registers (R14) -/
  ix : Word
  iy : Word
  /-- stack pointer (R15) -/
  sp : Word
  /-- program counter (R18) -/
  pc : Word
  /-- interrupt vector base (R20) -/
  i : Byte
  /-- refresh counter (R21) -/
  r : Byte
  /-- interrupt-enable latches (R22) -/
  iff1 : Bool
  iff2 : Bool
  /-- `interrupt_mode` (R23) -/
  im : IntMode
  /-- halt flag (R24) -/
  halted : Bool
  /-- decode state (R25) -/
  pfx : Pfx
  /-- `interrupt_status` (R26) -/
  istat : IntStatus
  /-- T-states consumed (R27), a natural number (R5) -/
  cycles : Nat
  /-- memory (R33, R40), as RAM (log 3) -/
  mem : Memory
  /-- the supplied reactions of the platform to port reads; a read takes the first one for its port (log 4) -/
  ioIn : List ReadReply
  /-- the supplied reactions of the platform to port writes; a write takes the first one for its port and byte (log 4) -/
  ioOut : List WriteReply
  /-- the port accesses made, the latest last (log 4) -/
  ioLog : List IoEvent
  /-- the pending non-maskable request, `ReqNmi` (R386, R398) -/
  reqNmi : Bool
  /-- the maskable request line and its vector byte, `ReqMi` (R383) -/
  reqMi : Option Byte
  /-- model's own: how many port accesses were made, the index of the next free reply (log 4) -/
  ioCount : Nat
  /-- model's own: how many free flag-bit pairs `BIT b,(HL)` has drawn (log 6) -/
  draws : Nat
  /-- model's own: `target_cycles` of the run in progress (R91, R92; log 7) -/
  target : Nat
  deriving DecidableEq, Repr

/-- The parameter `InitRegs` (R7): the values after reset of the eleven registers the spec leaves unspecified (R31). -/
structure InitRegs where
  af : Word
  bc : Word
  de : Word
  hl : Word
  af' : Word
  bc' : Word
  de' : Word
  hl' : Word
  ix : Word
  iy : Word
  sp : Word
  deriving DecidableEq, Repr

/-- The draw the model's reset state takes.
DESIGN CHOICE (log 1), unsafe: the spec gives these registers no reset value. -/
def InitRegs.zero : InitRegs :=
  { af := 0#16, bc := 0#16, de := 0#16, hl := 0#16, af' := 0#16, bc' := 0#16, de' := 0#16, hl' := 0#16,
    ix := 0#16, iy := 0#16, sp := 0#16 }

/-- The state after power-on with a draw of `InitRegs` (R30, R31, R420), over a platform that holds nothing yet. -/
def State.resetWith (d : InitRegs) : State :=
  { af := d.af, bc := d.bc, de := d.de, hl := d.hl, af' := d.af', bc' := d.bc', de' := d.de', hl' := d.hl',
    ix := d.ix, iy := d.iy, sp := d.sp, pc := 0x0000#16, i := 0x00#8, r := 0x00#8, iff1 := false, iff2 := false,
    im := .im1, halted := false, pfx := .noPrefix, istat := .noCheck, cycles := 0,
    mem := [], ioIn := [], ioOut := [], ioLog := [], reqNmi := false, reqMi := none, ioCount := 0, draws := 0, target := 0 }

/-- The machine right after reset (R30), the unspecified registers zero (log 1). -/
def State.reset : State := State.resetWith InitRegs.zero

/-- What a step answers (60_exceptions.md R381: a next state or a fault). -/
abbrev Result := Host.Outcome State Fault Refusal

end Sys2Proof.Machine
end

