-- ==== Sys2Proof/Machine/Ops.lean ====
section
/-! DEFINITION. The named operations over registers, memory, ports and the interrupt state, in the spec's words
(00_scope.md 5.2, 5.3), and the taking of an interrupt and the return from one (60_exceptions.md). -/

namespace Sys2Proof.Machine

/-! ## Memory cells (20_memory.md R40) -/

/-- The byte at an address; an unlisted cell reads as `Config.unwritten`. -/
def Memory.read : Memory → Nat → Byte
  | [], _ => Config.unwritten
  | (a, v) :: m, k => if k = a then v else Memory.read m k

/-- Put an entry at its place in the rising order, in place of an entry for the same address. -/
def Memory.insert : Memory → Nat → Byte → Memory
  | [], k, w => [(k, w)]
  | (a, v) :: m, k, w =>
    if k < a then (k, w) :: (a, v) :: m
    else if k = a then (k, w) :: m
    else (a, v) :: Memory.insert m k w

/-- Drop the entries for an address. -/
def Memory.erase : Memory → Nat → Memory
  | [], _ => []
  | (a, v) :: m, k => if k = a then Memory.erase m k else (a, v) :: Memory.erase m k

/-- Store a byte, keeping the canonical form: the value that unlisted cells read as is not listed. -/
def Memory.write (m : Memory) (k : Nat) (w : Byte) : Memory :=
  if w = Config.unwritten then m.erase k else m.insert k w

/-- Store these bytes, the first one first. -/
def Memory.writeAll (m : Memory) : List (Word × Byte) → Memory
  | [] => m
  | (a, v) :: cs => Memory.writeAll (m.write a.toNat v) cs

namespace State

/-- `MemRead(a, 1)` (R40). -/
def read8 (s : State) (a : Word) : Byte := s.mem.read a.toNat

/-- `MemWrite(a, 1, v)` (R40), to plain RAM (log 3). -/
def write8 (s : State) (a : Word) (v : Byte) : State := { s with mem := s.mem.write a.toNat v }

/-- `MemRead(a, 2)`: little-endian, wrapping (R41, R42). -/
def read16 (s : State) (a : Word) : Word := join (s.read8 (a + 1#16)) (s.read8 a)

/-- `MemWrite(a, 2, w)` to an absolute address: low byte at `a` first, then the high byte (R41, R42, R45 item 3). -/
def write16 (s : State) (a : Word) (w : Word) : State := (s.write8 a (lo w)).write8 (a + 1#16) (hi w)

/-! ## Registers (10_state.md R10, R11) -/

def getA (s : State) : Byte := hi s.af
/-- `F`, the flag register (R12). -/
def getF (s : State) : Byte := lo s.af
def getB (s : State) : Byte := hi s.bc
def getC (s : State) : Byte := lo s.bc

def setA (s : State) (v : Byte) : State := { s with af := setHi s.af v }
def setF (s : State) (v : Byte) : State := { s with af := setLo s.af v }
def setB (s : State) (v : Byte) : State := { s with bc := setHi s.bc v }

/-- Read an 8-bit register `r` (R11). -/
def getR (s : State) : Reg8 → Byte
  | .b => hi s.bc
  | .c => lo s.bc
  | .d => hi s.de
  | .e => lo s.de
  | .h => hi s.hl
  | .l => lo s.hl
  | .a => hi s.af

/-- Write an 8-bit register `r`; the other half of its pair is not disturbed (R11). -/
def setR (s : State) (r : Reg8) (v : Byte) : State :=
  match r with
  | .b => { s with bc := setHi s.bc v }
  | .c => { s with bc := setLo s.bc v }
  | .d => { s with de := setHi s.de v }
  | .e => { s with de := setLo s.de v }
  | .h => { s with hl := setHi s.hl v }
  | .l => { s with hl := setLo s.hl v }
  | .a => { s with af := setHi s.af v }

/-- Read a pair `ss` (R62 table `rp`). -/
def getSs (s : State) : Pair → Word
  | .bc => s.bc
  | .de => s.de
  | .hl => s.hl
  | .sp => s.sp

/-- Write a pair `ss`. -/
def setSs (s : State) (p : Pair) (w : Word) : State :=
  match p with
  | .bc => { s with bc := w }
  | .de => { s with de := w }
  | .hl => { s with hl := w }
  | .sp => { s with sp := w }

/-- Read a pair `qq` (R62 table `rp2`). -/
def getQq (s : State) : PairQ → Word
  | .bc => s.bc
  | .de => s.de
  | .hl => s.hl
  | .af => s.af

/-- Write a pair `qq`; `POP AF` loads all 8 bits of `F` (R12, R152). -/
def setQq (s : State) (p : PairQ) (w : Word) : State :=
  match p with
  | .bc => { s with bc := w }
  | .de => { s with de := w }
  | .hl => { s with hl := w }
  | .af => { s with af := w }

/-- Read the index register `II` (R14). -/
def getIi (s : State) : Idx → Word
  | .ix => s.ix
  | .iy => s.iy

/-- Write the index register `II`. -/
def setIi (s : State) (ii : Idx) (w : Word) : State :=
  match ii with
  | .ix => { s with ix := w }
  | .iy => { s with iy := w }

/-- Read a pair `pp`, where index 2 names `II` (43_arith16.md). -/
def getPp (s : State) (ii : Idx) : PairX → Word
  | .bc => s.bc
  | .de => s.de
  | .ii => s.getIi ii
  | .sp => s.sp

/-- Read an operand `p` of tables `DD`/`FD` (R134). -/
def getP (s : State) (ii : Idx) : RegP → Byte
  | .b => hi s.bc
  | .c => lo s.bc
  | .d => hi s.de
  | .e => lo s.de
  | .iih => hi (s.getIi ii)
  | .iil => lo (s.getIi ii)
  | .a => hi s.af

/-- Write an operand `p` of tables `DD`/`FD` (R134, R135). -/
def setP (s : State) (ii : Idx) (p : RegP) (v : Byte) : State :=
  match p with
  | .b => { s with bc := setHi s.bc v }
  | .c => { s with bc := setLo s.bc v }
  | .d => { s with de := setHi s.de v }
  | .e => { s with de := setLo s.de v }
  | .iih => s.setIi ii (setHi (s.getIi ii) v)
  | .iil => s.setIi ii (setLo (s.getIi ii) v)
  | .a => { s with af := setHi s.af v }

/-! ## Counters -/

/-- `cycles += n` (R27). -/
def tick (s : State) (n : Nat) : State := { s with cycles := s.cycles + n }

/-- The share of a total `T` that the completing iteration of a prefixed instruction adds: `T - 4`, the prefix byte
having added 4 (40_dispatch.md R99). -/
def tickPrefixed (s : State) (total : Nat) : State := s.tick (total - 4)

/-- `R <- (R & 0x80) | ((R + 1) & 0x7F)` (R21). -/
def bumpR (r : Byte) : Byte := (r &&& 0x80#8) ||| ((r + 1#8) &&& 0x7F#8)

/-- `IncR()` (R21). -/
def incR (s : State) : State := { s with r := bumpR s.r }

/-! ## Stack (20_memory.md R44) -/

/-- `Push16(w)`: high byte at `SP - 1`, then low byte at `SP - 2`; `SP` ends 2 lower. -/
def push16 (s : State) (w : Word) : State :=
  let s := { s with sp := s.sp - 1#16 }
  let s := s.write8 s.sp (hi w)
  let s := { s with sp := s.sp - 1#16 }
  s.write8 s.sp (lo w)

/-- The word `Pop16()` answers: low byte at `SP`, high byte at `SP + 1`. -/
def top16 (s : State) : Word := join (s.read8 (s.sp + 1#16)) (s.read8 s.sp)

/-- What `Pop16()` does to the state: `SP` ends 2 higher. -/
def pop16 (s : State) : State := { s with sp := s.sp + 1#16 + 1#16 }

/-! ## Ports (48_io_cpu_control.md R350, 20_memory.md R47) -/

end State

/-- A supplied reply is for a read of port `p`. -/
def readServes (p : Word) (r : ReadReply) : Bool := r.port.all (· == p)

/-- A supplied reply is for a write of `v` to port `p`. -/
def writeServes (p : Word) (v : Byte) (r : WriteReply) : Bool := r.port.all (· == p) && r.data.all (· == v)

/-- What a port access does to the maskable line (R6, R47). -/
def moveMi (now : Option Byte) : MiChange → Option Byte
  | .keep => now
  | .drop => none
  | .raise v => some v

namespace State

/-- The platform's reaction to `IoRead(p)`: the first supplied reply for that port, or a free value (log 4). -/
def readReply (s : State) (p : Word) : Byte × IoEffect :=
  match s.ioIn.find? (readServes p) with
  | some r => (r.data, r.effect)
  | none => Config.freeRead s.ioCount s.ioLog p

/-- The byte `IoRead(p)` answers. -/
def ioByte (s : State) (p : Word) : Byte := (s.readReply p).1

/-- The platform's reaction to `IoWrite(p, v)`: the first supplied reply for it, or a free value (log 4). -/
def writeReply (s : State) (p : Word) (v : Byte) : IoEffect :=
  match s.ioOut.find? (writeServes p v) with
  | some r => r.effect
  | none => Config.freeWrite s.ioCount s.ioLog p v

/-- A port access: it is recorded, the platform changes memory and its request lines as `e` says (D17), a pending
non-maskable request staying pending (R386), and the IO-class side effect `interrupt_status <- Check` follows (R350 (b)). The
reactions supplied for later accesses stay as they are (log 24). -/
def ioAccess (s : State) (ev : IoEvent) (e : IoEffect) : State :=
  { s with
    mem := s.mem.writeAll e.stores
    ioLog := s.ioLog ++ [ev]
    ioCount := s.ioCount + 1
    reqNmi := s.reqNmi || e.latchNmi
    reqMi := moveMi s.reqMi e.mi
    istat := .check }

/-- `IoRead(p)`, which answers `s.ioByte p`; the reply is used up. -/
def ioRead (s : State) (p : Word) : State :=
  { s.ioAccess (.read p (s.ioByte p)) (s.readReply p).2 with ioIn := s.ioIn.eraseP (readServes p) }

/-- `IoWrite(p, v)`; the reply is used up. -/
def ioWrite (s : State) (p : Word) (v : Byte) : State :=
  { s.ioAccess (.write p v) (s.writeReply p v) with ioOut := s.ioOut.eraseP (writeServes p v) }

/-! ## Taking an interrupt and returning from one (60_exceptions.md) -/

/-- What every acceptance does (R404, R387, R389): `R` counts once, the core leaves the halt and any decode state, the cost
is added, `PC` is saved on the stack and control goes to the entry address. -/
def enter (s : State) (entry : Word) (cost : Nat) : State :=
  { ((({ s with pfx := .noPrefix, halted := false }.incR).tick cost).push16 s.pc) with pc := entry }

/-- `AcceptNmi` (R387): `TakeNmi` clears the platform's latch, `iff1` is cleared, `iff2` is kept.
DESIGN CHOICE (log 23), unsafe: D17 lets `TakeNmi` change the platform in any way; here it clears the pending latch and
nothing else: memory, the supplied replies, the log and the maskable line stay. -/
def acceptNmi (s : State) : State :=
  { s with reqNmi := false, iff1 := false }.enter 0x0066#16 11

end State

/-- `AcceptMi(v)` (R389 to R392): both latches are cleared; mode 1 enters `0x0038`, mode 2 enters `I ++ v`, mode 0 is
fatal. -/
def acceptMi (v : Byte) (s : State) : Result :=
  match s.im with
  | .im1 => .next ({ s with iff1 := false, iff2 := false }.enter 0x0038#16 13)
  | .im2 => .next ({ s with iff1 := false, iff2 := false }.enter (join s.i v) 19)
  | .im0 => .fault .im0Service

/-- `InterruptCheck` (R385): the status becomes `NoCheck`; a pending non-maskable request is accepted; else an asserted
maskable request is accepted if `iff1` is set; else nothing more. -/
def interruptCheck (s : State) : Result :=
  let s := { s with istat := .noCheck }
  if s.reqNmi then .next s.acceptNmi
  else
    match s.reqMi, s.iff1 with
    | some v, true => acceptMi v s
    | _, _ => .next s

namespace State

/-- `PC <- Pop16(); iff1 <- iff2`: the return from an interrupt of `RETN` and `RETI` (R395, R334, R335). -/
def returnFromInterrupt (s : State) : State :=
  { s.pop16 with pc := s.top16, iff1 := s.iff2 }

/-- An interrupt check is due at an instruction boundary (R98): `Check`, or `Ei(n)` with `cycles > n`. -/
def checkDue (s : State) : Bool :=
  match s.istat with
  | .check => true
  | .ei n => decide (n < s.cycles)
  | .noCheck => false

/-- `HaltSpin` (R93): `cycles <- max(cycles, target)`. -/
def haltSpin (s : State) : State := { s with cycles := max s.cycles s.target }

end State

end Sys2Proof.Machine
end

