-- ==== Sys2Proof/Machine/Operands.lean ====
section
/-! DEFINITION. The operand forms and the condition codes (spec 40_dispatch.md R100 to R106, R110). An immediate is the
instruction's own field, a register operand is read by `State.getR` and its like (Ops.lean); here stand the memory
operands and the conditions. -/

namespace Sys2Proof.Machine.State

/-- Effective address of an indexed operand `(II+d)`: `II +16 sext_16(d)`, wrapping (R104). -/
def ea (s : State) (ii : Idx) (d : Byte) : Word := s.getIi ii + sext16 d

/-- View of the memory operand `(HL)` (R103). -/
def atHl (s : State) : Byte := s.read8 s.hl

/-- View of the indexed operand `(II+d)` (R104). -/
def atIi (s : State) (ii : Idx) (d : Byte) : Byte := s.read8 (s.ea ii d)

/-- `(F & mask) = match` of the condition table (R110). -/
def condMask (f mask value : Byte) : Bool := f &&& mask == value

/-- `cond(cc)` (R110). -/
def cond (s : State) : Cond → Bool
  | .nz => condMask s.getF 0x40#8 0x00#8
  | .z => condMask s.getF 0x40#8 0x40#8
  | .nc => condMask s.getF 0x01#8 0x00#8
  | .c => condMask s.getF 0x01#8 0x01#8
  | .po => condMask s.getF 0x04#8 0x00#8
  | .pe => condMask s.getF 0x04#8 0x04#8
  | .p => condMask s.getF 0x80#8 0x00#8
  | .m => condMask s.getF 0x80#8 0x80#8

/-- Target of a relative jump: `PC_next +16 sext_16(e)` (47_control_transfer.md R323); `PC` already is `PC_next`. -/
def relTarget (s : State) (e : Byte) : Word := s.pc + sext16 e

/-- Port address of `IN A,(n)` and `OUT (n),A`: `A ++ n` (48_io_cpu_control.md R350 (a)). -/
def portAN (s : State) (n : Byte) : Word := join s.getA n

end Sys2Proof.Machine.State
end

