-- ==== Sys2Proof/Machine/Flags.lean ====
section
/-! DEFINITION. The flag register's bits and every flag computation of the spec: the helpers (40_dispatch.md R107 to R109),
the 8-bit cores (42_arith8.md R181), increments, decimal adjust, 16-bit arithmetic (43_arith16.md), rotates and shifts
(44_rotate_shift.md), bit tests (45_bit.md) and the block instructions (46_block.md). -/

namespace Sys2Proof.Machine

/-! ## The bits of `F` (10_state.md R12) -/

def flagS (f : Byte) : Bool := f.getLsbD 7
def flagZ (f : Byte) : Bool := f.getLsbD 6
def flagY (f : Byte) : Bool := f.getLsbD 5
def flagH (f : Byte) : Bool := f.getLsbD 4
def flagX (f : Byte) : Bool := f.getLsbD 3
def flagP (f : Byte) : Bool := f.getLsbD 2
def flagN (f : Byte) : Bool := f.getLsbD 1
def flagC (f : Byte) : Bool := f.getLsbD 0

/-- `F` from its eight bits, bit 7 first (R12). -/
def packF (s z y h x p n c : Bool) : Byte :=
  BitVec.ofBool s ++ BitVec.ofBool z ++ BitVec.ofBool y ++ BitVec.ofBool h ++ BitVec.ofBool x ++ BitVec.ofBool p
    ++ BitVec.ofBool n ++ BitVec.ofBool c

/-- `sign(v) = v[7]` (R107). -/
def signB (v : Byte) : Bool := v.getLsbD 7

/-- `zero(v)` (R107). -/
def zeroB (v : Byte) : Bool := v == 0#8

/-- The value for `Y` from `v`: bit 5 (R19 (b)). -/
def yOf (v : Byte) : Bool := v.getLsbD 5

/-- The value for `X` from `v`: bit 3 (R19 (b)). -/
def xOf (v : Byte) : Bool := v.getLsbD 3

/-! ## The 8-bit cores (R181) -/

/-- What an arithmetic core answers: the result and its flags. -/
structure Alu where
  r : Byte
  s : Bool
  z : Bool
  h : Bool
  v : Bool
  n : Bool
  c : Bool
  deriving DecidableEq, Repr

/-- `add8(a, b, c)`: the exact sum in the integers, then narrowed (R181, R109). -/
def add8 (a b : Byte) (c : Bool) : Alu :=
  let sum := a.toNat + b.toNat + c.toNat
  let signed := a.toInt + b.toInt + c.toNat
  let r := BitVec.ofNat 8 sum
  { r := r
    s := signB r
    z := zeroB r
    h := decide (0x0F < a.toNat % 16 + b.toNat % 16 + c.toNat)
    v := decide (signed < -128 ∨ 127 < signed)
    n := false
    c := decide (0xFF < sum) }

/-- `sub8(a, b, c)`: the exact difference in the integers, then narrowed (R181). -/
def sub8 (a b : Byte) (c : Bool) : Alu :=
  let diff : Int := (a.toNat : Int) - b.toNat - c.toNat
  let signed := a.toInt - b.toInt - c.toNat
  let r := BitVec.ofInt 8 diff
  { r := r
    s := signB r
    z := zeroB r
    h := decide (((a.toNat % 16 : Nat) : Int) - ((b.toNat % 16 : Nat) : Int) - c.toNat < 0)
    v := decide (signed < -128 ∨ 127 < signed)
    n := true
    c := decide (diff < 0) }

/-- `F` after an arithmetic core, with `Y, X` from `yx` and `P/V` the overflow (R182 to R185, R189, R195). -/
def aluFlags (o : Alu) (yx : Byte) : Byte := packF o.s o.z (yOf yx) o.h (xOf yx) o.v o.n o.c

/-- `F` after `AND`, `XOR`, `OR`: `SZYXP(r)`, `H` as given, `N = C = 0` (R186 to R188). -/
def logicFlags (r : Byte) (h : Bool) : Byte := packF (signB r) (zeroB r) (yOf r) h (xOf r) (parity r) false false

/-- `F` after an 8-bit `INC` of `v` to `r`, `C` kept (R191). -/
def incFlags (v r f : Byte) : Byte :=
  packF (signB r) (zeroB r) (yOf r) (v &&& 0x0F#8 == 0x0F#8) (xOf r) (v == 0x7F#8) false (flagC f)

/-- `F` after an 8-bit `DEC` of `v` to `r`, `C` kept (R192). -/
def decFlags (v r f : Byte) : Byte :=
  packF (signB r) (zeroB r) (yOf r) (v &&& 0x0F#8 == 0x00#8) (xOf r) (v == 0x80#8) true (flagC f)

/-! ## `DAA` (R193) -/

/-- `0x06` is part of the correction. -/
def daaLow (a f : Byte) : Bool := flagH f || decide (0x09 < a.toNat % 16)

/-- `0x60` is part of the correction; it is the new `C`. -/
def daaHigh (a f : Byte) : Bool := flagC f || decide (0x99 < a.toNat)

/-- The correction `corr`. -/
def daaCorr (a f : Byte) : Byte :=
  (if daaLow a f then 0x06#8 else 0x00#8) ||| (if daaHigh a f then 0x60#8 else 0x00#8)

/-- The adjusted `A`: added after an addition (`N = 0`), subtracted after a subtraction. -/
def daaResult (a f : Byte) : Byte := if flagN f then a - daaCorr a f else a + daaCorr a f

/-- The new `H`. -/
def daaHalf (a f : Byte) : Bool :=
  if flagN f then flagH f && decide (a.toNat % 16 < 0x06) else decide (0x09 < a.toNat % 16)

/-- `F` after `DAA`: `SZYXP(r)`, `H` and `C` computed, `N` kept. -/
def daaFlags (a f : Byte) : Byte :=
  let r := daaResult a f
  packF (signB r) (zeroB r) (yOf r) (daaHalf a f) (xOf r) (parity r) (flagN f) (daaHigh a f)

/-! ## Accumulator and flag operations (R194, R196, R197) -/

/-- `F` after `CPL`, from the new `A`: `H = N = 1`, `Y, X` from it, the rest kept. -/
def cplFlags (a f : Byte) : Byte := packF (flagS f) (flagZ f) (yOf a) true (xOf a) (flagP f) true (flagC f)

/-- `F` after `SCF`. -/
def scfFlags (a f : Byte) : Byte := packF (flagS f) (flagZ f) (yOf a) false (xOf a) (flagP f) false true

/-- `F` after `CCF`. -/
def ccfFlags (a f : Byte) : Byte := packF (flagS f) (flagZ f) (yOf a) (flagC f) (xOf a) (flagP f) false (!flagC f)

/-- `F` after `LD A,I` and `LD A,R` of the value `v`: `SZYX(v)`, `H = N = 0`, `P/V = iff2`, `C` kept (R136, R137). -/
def ldAIFlags (v f : Byte) (iff2 : Bool) : Byte :=
  packF (signB v) (zeroB v) (yOf v) false (xOf v) iff2 false (flagC f)

/-- `F` after `IN r,(C)`, `IN (C)` of the value `v`, and after `RLD`, `RRD` with the new `A` as `v`: `SZYXP(v)`, `H = N = 0`,
`C` kept (R352, R353, R254, R255). -/
def inFlags (v f : Byte) : Byte :=
  packF (signB v) (zeroB v) (yOf v) false (xOf v) (parity v) false (flagC f)

/-! ## 16-bit arithmetic (43_arith16.md) -/

/-- The 16-bit sum with carry-in, modulo 65536 (R220, R222). -/
def add16 (a b : Word) (c : Bool) : Word := BitVec.ofNat 16 (a.toNat + b.toNat + c.toNat)

/-- Carry out of bit 11 (R220, R222). -/
def half16 (a b : Word) (c : Bool) : Bool := decide (0x0FFF < a.toNat % 4096 + b.toNat % 4096 + c.toNat)

/-- Carry out of bit 15 (R220, R222). -/
def carry16 (a b : Word) (c : Bool) : Bool := decide (0xFFFF < a.toNat + b.toNat + c.toNat)

/-- Signed overflow of the sum (R222). -/
def over16 (a b : Word) (c : Bool) : Bool :=
  let signed := a.toInt + b.toInt + c.toNat
  decide (signed < -32768 ∨ 32767 < signed)

/-- `F` after `ADD HL,ss` and `ADD II,pp`: `H, N, C, Y, X` written, `S, Z, P` kept (R220, R221). -/
def addPairFlags (a b : Word) (f : Byte) : Byte :=
  let r := add16 a b false
  packF (flagS f) (flagZ f) (yOf (hi r)) (half16 a b false) (xOf (hi r)) (flagP f) false (carry16 a b false)

/-- `F` after `ADC HL,ss`: all eight flags (R222). -/
def adcPairFlags (a b : Word) (c : Bool) : Byte :=
  let r := add16 a b c
  packF (r.getLsbD 15) (r == 0#16) (yOf (hi r)) (half16 a b c) (xOf (hi r)) (over16 a b c) false (carry16 a b c)

/-- The 16-bit difference with borrow-in, modulo 65536 (R223). -/
def sub16 (a b : Word) (c : Bool) : Word := BitVec.ofInt 16 ((a.toNat : Int) - b.toNat - c.toNat)

/-- `F` after `SBC HL,ss`: all eight flags (R223). -/
def sbcPairFlags (a b : Word) (c : Bool) : Byte :=
  let r := sub16 a b c
  let signed := a.toInt - b.toInt - c.toNat
  packF (r.getLsbD 15) (r == 0#16) (yOf (hi r))
    (decide (((a.toNat % 4096 : Nat) : Int) - ((b.toNat % 4096 : Nat) : Int) - c.toNat < 0)) (xOf (hi r))
    (decide (signed < -32768 ∨ 32767 < signed)) true (decide ((a.toNat : Int) - b.toNat - c.toNat < 0))

/-! ## Rotates and shifts (44_rotate_shift.md)

Each operation answers the result and the bit shifted out, from the operand and the old carry. -/

/-- `RLC` (R246), `RLCA` (R240). -/
def rotRlc (v : Byte) (_c : Bool) : Byte × Bool := (v <<< 1 ||| (BitVec.ofBool (v.getLsbD 7)).setWidth 8, v.getLsbD 7)

/-- `RRC` (R247), `RRCA` (R241). -/
def rotRrc (v : Byte) (_c : Bool) : Byte × Bool :=
  (v >>> 1 ||| (BitVec.ofBool (v.getLsbD 0)).setWidth 8 <<< 7, v.getLsbD 0)

/-- `RL` (R248), `RLA` (R242). -/
def rotRl (v : Byte) (c : Bool) : Byte × Bool := (v <<< 1 ||| (BitVec.ofBool c).setWidth 8, v.getLsbD 7)

/-- `RR` (R249), `RRA` (R243). -/
def rotRr (v : Byte) (c : Bool) : Byte × Bool := (v >>> 1 ||| (BitVec.ofBool c).setWidth 8 <<< 7, v.getLsbD 0)

/-- `SLA` (R250). -/
def rotSla (v : Byte) (_c : Bool) : Byte × Bool := (v <<< 1, v.getLsbD 7)

/-- `SRA` (R251). -/
def rotSra (v : Byte) (_c : Bool) : Byte × Bool := (v >>> 1 ||| (v &&& 0x80#8), v.getLsbD 0)

/-- `SLL` (R252): bit 0 becomes 1. -/
def rotSll (v : Byte) (_c : Bool) : Byte × Bool := (v <<< 1 ||| 0x01#8, v.getLsbD 7)

/-- `SRL` (R253). -/
def rotSrl (v : Byte) (_c : Bool) : Byte × Bool := (v >>> 1, v.getLsbD 0)

/-- `F` after a `CB` rotate or shift: `SZYXP(res)`, `H = N = 0`, `C` the bit shifted out (R245). -/
def rotFlags (res : Byte) (c : Bool) : Byte :=
  packF (signB res) (zeroB res) (yOf res) false (xOf res) (parity res) false c

/-- `F` after an accumulator rotate: `C`, `H = N = 0`, `Y, X` from the new `A`; `S, Z, P` kept (R240 to R243). -/
def rotAFlags (a f : Byte) (c : Bool) : Byte :=
  packF (flagS f) (flagZ f) (yOf a) false (xOf a) (flagP f) false c

/-! ## Bit tests (45_bit.md R270 to R272) -/

/-- `F` after `BIT b` found the bit `t`, with the given `Y` and `X`; `C` kept. -/
def bitFlags (b : BitVec 3) (t y x : Bool) (f : Byte) : Byte :=
  packF (b == 7#3 && t) (!t) y true x (!t) false (flagC f)

/-! ## Block instructions (46_block.md) -/

/-- `F` after `LDI`-class: `n = A + t`; `Y = n[1]`, `X = n[3]`, `P/V` = `BC_new ≠ 0`, `H = N = 0`, `S, Z, C` kept (R292). -/
def blockLdFlags (n : Byte) (bc : Word) (f : Byte) : Byte :=
  packF (flagS f) (flagZ f) (n.getLsbD 1) false (n.getLsbD 3) (bc != 0#16) false (flagC f)

/-- Half borrow of `A - t` (R296). -/
def cpiHalf (a t : Byte) : Bool := decide (a.toNat % 16 < t.toNat % 16)

/-- `n = (r - h) & 0xFF` of the compare step (R296). -/
def cpiN (a t : Byte) : Byte := a - t - (BitVec.ofBool (cpiHalf a t)).setWidth 8

/-- `F` after `CPI`-class (R296). -/
def blockCpFlags (a t : Byte) (bc : Word) (f : Byte) : Byte :=
  packF (signB (a - t)) (zeroB (a - t)) ((cpiN a t).getLsbD 1) (cpiHalf a t) ((cpiN a t).getLsbD 3) (bc != 0#16) true
    (flagC f)

/-- `F` after `INI`-class and `OUTI`-class, from the byte `t`, the sum `k` and the new `B` (R300, R304). -/
def blockIoFlags (t : Byte) (k : Nat) (b : Byte) : Byte :=
  packF (signB b) (zeroB b) (yOf b) (decide (0xFF < k)) (xOf b) (parity ((BitVec.ofNat 8 k &&& 0x07#8) ^^^ b))
    (t.getLsbD 7) (decide (0xFF < k))

end Sys2Proof.Machine
end

