-- ==== Sys2Proof/Machine/Arith16.lean ====
section
/-! DEFINITION. 16-bit arithmetic (spec 43_arith16.md): one meaning per row. No instruction here can fault. -/

namespace Sys2Proof.Machine

/-- `ADD HL,ss` (R220), 11 cycles. -/
def execAddHlSs (ss : Pair) (s : State) : Result :=
  let b := s.getSs ss
  .next (({ s with hl := add16 s.hl b false }.setF (addPairFlags s.hl b s.getF)).tick 11)

/-- `ADD II,pp` (R221), 15 cycles. -/
def execAddIiPp (ii : Idx) (pp : PairX) (s : State) : Result :=
  let (a, b) := (s.getIi ii, s.getPp ii pp)
  .next (((s.setIi ii (add16 a b false)).setF (addPairFlags a b s.getF)).tickPrefixed 15)

/-- `ADC HL,ss` (R222), 15 cycles. -/
def execAdcHlSs (ss : Pair) (s : State) : Result :=
  let (b, c) := (s.getSs ss, flagC s.getF)
  .next (({ s with hl := add16 s.hl b c }.setF (adcPairFlags s.hl b c)).tickPrefixed 15)

/-- `SBC HL,ss` (R223), 15 cycles. -/
def execSbcHlSs (ss : Pair) (s : State) : Result :=
  let (b, c) := (s.getSs ss, flagC s.getF)
  .next (({ s with hl := sub16 s.hl b c }.setF (sbcPairFlags s.hl b c)).tickPrefixed 15)

/-- `INC ss` (R224), 6 cycles: no flag. -/
def execIncSs (ss : Pair) (s : State) : Result :=
  .next ((s.setSs ss (s.getSs ss + 1#16)).tick 6)

/-- `INC II` (R225), 10 cycles: no flag. -/
def execIncIi (ii : Idx) (s : State) : Result :=
  .next ((s.setIi ii (s.getIi ii + 1#16)).tickPrefixed 10)

/-- `DEC ss` (R226), 6 cycles: no flag. -/
def execDecSs (ss : Pair) (s : State) : Result :=
  .next ((s.setSs ss (s.getSs ss - 1#16)).tick 6)

/-- `DEC II` (R227), 10 cycles: no flag. -/
def execDecIi (ii : Idx) (s : State) : Result :=
  .next ((s.setIi ii (s.getIi ii - 1#16)).tickPrefixed 10)

end Sys2Proof.Machine
end

