-- ==== Sys2Proof/Machine/Arith8.lean ====
section
/-! DEFINITION. 8-bit arithmetic and logic, increments, accumulator and flag operations (spec 42_arith8.md): one meaning
per row. No instruction here can fault. -/

namespace Sys2Proof.Machine

/-! ## The eight accumulator operations (R182 to R189)

Each takes the operand's value `v`, read once before `A` or `F` is written (R180). -/

def aluAdd (v : Byte) (s : State) : State :=
  let o := add8 s.getA v false
  { s with af := join o.r (aluFlags o o.r) }

def aluAdc (v : Byte) (s : State) : State :=
  let o := add8 s.getA v (flagC s.getF)
  { s with af := join o.r (aluFlags o o.r) }

def aluSub (v : Byte) (s : State) : State :=
  let o := sub8 s.getA v false
  { s with af := join o.r (aluFlags o o.r) }

def aluSbc (v : Byte) (s : State) : State :=
  let o := sub8 s.getA v (flagC s.getF)
  { s with af := join o.r (aluFlags o o.r) }

def aluAnd (v : Byte) (s : State) : State :=
  let r := s.getA &&& v
  { s with af := join r (logicFlags r true) }

def aluXor (v : Byte) (s : State) : State :=
  let r := s.getA ^^^ v
  { s with af := join r (logicFlags r false) }

def aluOr (v : Byte) (s : State) : State :=
  let r := s.getA ||| v
  { s with af := join r (logicFlags r false) }

/-- `CP`: `A` is not written; `Y, X` come from the operand (R189). -/
def aluCp (v : Byte) (s : State) : State :=
  { s with af := join s.getA (aluFlags (sub8 s.getA v false) v) }

/-- `ADD A,r` (R182), 4 cycles. -/
def execAddReg (r : Reg8) (s : State) : Result :=
  .next ((aluAdd (s.getR r) s).tick 4)

/-- `ADD A,(HL)` (R182), 7 cycles. -/
def execAddMem (s : State) : Result :=
  .next ((aluAdd s.atHl s).tick 7)

/-- `ADD A,n` (R182), 7 cycles. -/
def execAddN (n : Byte) (s : State) : Result :=
  .next ((aluAdd n s).tick 7)

/-- `ADD A,(II+d)` (R182), 19 cycles. -/
def execAddIdx (ii : Idx) (d : Byte) (s : State) : Result :=
  .next ((aluAdd (s.atIi ii d) s).tickPrefixed 19)

/-- `ADD A,IIH` (R182), 8 cycles. -/
def execAddIih (ii : Idx) (s : State) : Result :=
  .next ((aluAdd (s.getP ii .iih) s).tickPrefixed 8)

/-- `ADD A,IIL` (R182), 8 cycles. -/
def execAddIil (ii : Idx) (s : State) : Result :=
  .next ((aluAdd (s.getP ii .iil) s).tickPrefixed 8)

/-- `ADC A,r` (R183), 4 cycles. -/
def execAdcReg (r : Reg8) (s : State) : Result :=
  .next ((aluAdc (s.getR r) s).tick 4)

/-- `ADC A,(HL)` (R183), 7 cycles. -/
def execAdcMem (s : State) : Result :=
  .next ((aluAdc s.atHl s).tick 7)

/-- `ADC A,n` (R183), 7 cycles. -/
def execAdcN (n : Byte) (s : State) : Result :=
  .next ((aluAdc n s).tick 7)

/-- `ADC A,(II+d)` (R183), 19 cycles. -/
def execAdcIdx (ii : Idx) (d : Byte) (s : State) : Result :=
  .next ((aluAdc (s.atIi ii d) s).tickPrefixed 19)

/-- `ADC A,IIH` (R183), 8 cycles. -/
def execAdcIih (ii : Idx) (s : State) : Result :=
  .next ((aluAdc (s.getP ii .iih) s).tickPrefixed 8)

/-- `ADC A,IIL` (R183), 8 cycles. -/
def execAdcIil (ii : Idx) (s : State) : Result :=
  .next ((aluAdc (s.getP ii .iil) s).tickPrefixed 8)

/-- `SUB r` (R184), 4 cycles. -/
def execSubReg (r : Reg8) (s : State) : Result :=
  .next ((aluSub (s.getR r) s).tick 4)

/-- `SUB (HL)` (R184), 7 cycles. -/
def execSubMem (s : State) : Result :=
  .next ((aluSub s.atHl s).tick 7)

/-- `SUB n` (R184), 7 cycles. -/
def execSubN (n : Byte) (s : State) : Result :=
  .next ((aluSub n s).tick 7)

/-- `SUB (II+d)` (R184), 19 cycles. -/
def execSubIdx (ii : Idx) (d : Byte) (s : State) : Result :=
  .next ((aluSub (s.atIi ii d) s).tickPrefixed 19)

/-- `SUB IIH` (R184), 8 cycles. -/
def execSubIih (ii : Idx) (s : State) : Result :=
  .next ((aluSub (s.getP ii .iih) s).tickPrefixed 8)

/-- `SUB IIL` (R184), 8 cycles. -/
def execSubIil (ii : Idx) (s : State) : Result :=
  .next ((aluSub (s.getP ii .iil) s).tickPrefixed 8)

/-- `SBC A,r` (R185), 4 cycles. -/
def execSbcReg (r : Reg8) (s : State) : Result :=
  .next ((aluSbc (s.getR r) s).tick 4)

/-- `SBC A,(HL)` (R185), 7 cycles. -/
def execSbcMem (s : State) : Result :=
  .next ((aluSbc s.atHl s).tick 7)

/-- `SBC A,n` (R185), 7 cycles. -/
def execSbcN (n : Byte) (s : State) : Result :=
  .next ((aluSbc n s).tick 7)

/-- `SBC A,(II+d)` (R185), 19 cycles. -/
def execSbcIdx (ii : Idx) (d : Byte) (s : State) : Result :=
  .next ((aluSbc (s.atIi ii d) s).tickPrefixed 19)

/-- `SBC A,IIH` (R185), 8 cycles. -/
def execSbcIih (ii : Idx) (s : State) : Result :=
  .next ((aluSbc (s.getP ii .iih) s).tickPrefixed 8)

/-- `SBC A,IIL` (R185), 8 cycles. -/
def execSbcIil (ii : Idx) (s : State) : Result :=
  .next ((aluSbc (s.getP ii .iil) s).tickPrefixed 8)

/-- `AND r` (R186), 4 cycles. -/
def execAndReg (r : Reg8) (s : State) : Result :=
  .next ((aluAnd (s.getR r) s).tick 4)

/-- `AND (HL)` (R186), 7 cycles. -/
def execAndMem (s : State) : Result :=
  .next ((aluAnd s.atHl s).tick 7)

/-- `AND n` (R186), 7 cycles. -/
def execAndN (n : Byte) (s : State) : Result :=
  .next ((aluAnd n s).tick 7)

/-- `AND (II+d)` (R186), 19 cycles. -/
def execAndIdx (ii : Idx) (d : Byte) (s : State) : Result :=
  .next ((aluAnd (s.atIi ii d) s).tickPrefixed 19)

/-- `AND IIH` (R186), 8 cycles. -/
def execAndIih (ii : Idx) (s : State) : Result :=
  .next ((aluAnd (s.getP ii .iih) s).tickPrefixed 8)

/-- `AND IIL` (R186), 8 cycles. -/
def execAndIil (ii : Idx) (s : State) : Result :=
  .next ((aluAnd (s.getP ii .iil) s).tickPrefixed 8)

/-- `XOR r` (R187), 4 cycles. -/
def execXorReg (r : Reg8) (s : State) : Result :=
  .next ((aluXor (s.getR r) s).tick 4)

/-- `XOR (HL)` (R187), 7 cycles. -/
def execXorMem (s : State) : Result :=
  .next ((aluXor s.atHl s).tick 7)

/-- `XOR n` (R187), 7 cycles. -/
def execXorN (n : Byte) (s : State) : Result :=
  .next ((aluXor n s).tick 7)

/-- `XOR (II+d)` (R187), 19 cycles. -/
def execXorIdx (ii : Idx) (d : Byte) (s : State) : Result :=
  .next ((aluXor (s.atIi ii d) s).tickPrefixed 19)

/-- `XOR IIH` (R187), 8 cycles. -/
def execXorIih (ii : Idx) (s : State) : Result :=
  .next ((aluXor (s.getP ii .iih) s).tickPrefixed 8)

/-- `XOR IIL` (R187), 8 cycles. -/
def execXorIil (ii : Idx) (s : State) : Result :=
  .next ((aluXor (s.getP ii .iil) s).tickPrefixed 8)

/-- `OR r` (R188), 4 cycles. -/
def execOrReg (r : Reg8) (s : State) : Result :=
  .next ((aluOr (s.getR r) s).tick 4)

/-- `OR (HL)` (R188), 7 cycles. -/
def execOrMem (s : State) : Result :=
  .next ((aluOr s.atHl s).tick 7)

/-- `OR n` (R188), 7 cycles. -/
def execOrN (n : Byte) (s : State) : Result :=
  .next ((aluOr n s).tick 7)

/-- `OR (II+d)` (R188), 19 cycles. -/
def execOrIdx (ii : Idx) (d : Byte) (s : State) : Result :=
  .next ((aluOr (s.atIi ii d) s).tickPrefixed 19)

/-- `OR IIH` (R188), 8 cycles. -/
def execOrIih (ii : Idx) (s : State) : Result :=
  .next ((aluOr (s.getP ii .iih) s).tickPrefixed 8)

/-- `OR IIL` (R188), 8 cycles. -/
def execOrIil (ii : Idx) (s : State) : Result :=
  .next ((aluOr (s.getP ii .iil) s).tickPrefixed 8)

/-- `CP r` (R189), 4 cycles. -/
def execCpReg (r : Reg8) (s : State) : Result :=
  .next ((aluCp (s.getR r) s).tick 4)

/-- `CP (HL)` (R189), 7 cycles. -/
def execCpMem (s : State) : Result :=
  .next ((aluCp s.atHl s).tick 7)

/-- `CP n` (R189), 7 cycles. -/
def execCpN (n : Byte) (s : State) : Result :=
  .next ((aluCp n s).tick 7)

/-- `CP (II+d)` (R189), 19 cycles. -/
def execCpIdx (ii : Idx) (d : Byte) (s : State) : Result :=
  .next ((aluCp (s.atIi ii d) s).tickPrefixed 19)

/-- `CP IIH` (R189), 8 cycles. -/
def execCpIih (ii : Idx) (s : State) : Result :=
  .next ((aluCp (s.getP ii .iih) s).tickPrefixed 8)

/-- `CP IIL` (R189), 8 cycles. -/
def execCpIil (ii : Idx) (s : State) : Result :=
  .next ((aluCp (s.getP ii .iil) s).tickPrefixed 8)

/-! ## Increment and decrement (R190 to R192) -/

/-- `INC r` (R191), 4 cycles. -/
def execIncReg (r : Reg8) (s : State) : Result :=
  let v := s.getR r
  .next (((s.setF (incFlags v (v + 1#8) s.getF)).setR r (v + 1#8)).tick 4)

/-- `INC (HL)` (R191), 11 cycles. -/
def execIncMem (s : State) : Result :=
  let v := s.atHl
  .next (((s.write8 s.hl (v + 1#8)).setF (incFlags v (v + 1#8) s.getF)).tick 11)

/-- `INC (II+d)` (R191), 23 cycles. -/
def execIncIdx (ii : Idx) (d : Byte) (s : State) : Result :=
  let v := s.atIi ii d
  .next (((s.write8 (s.ea ii d) (v + 1#8)).setF (incFlags v (v + 1#8) s.getF)).tickPrefixed 23)

/-- `INC IIH` (R191), 8 cycles. -/
def execIncIih (ii : Idx) (s : State) : Result :=
  let v := s.getP ii .iih
  .next (((s.setF (incFlags v (v + 1#8) s.getF)).setP ii .iih (v + 1#8)).tickPrefixed 8)

/-- `INC IIL` (R191), 8 cycles. -/
def execIncIil (ii : Idx) (s : State) : Result :=
  let v := s.getP ii .iil
  .next (((s.setF (incFlags v (v + 1#8) s.getF)).setP ii .iil (v + 1#8)).tickPrefixed 8)

/-- `DEC r` (R192), 4 cycles. -/
def execDecReg (r : Reg8) (s : State) : Result :=
  let v := s.getR r
  .next (((s.setF (decFlags v (v - 1#8) s.getF)).setR r (v - 1#8)).tick 4)

/-- `DEC (HL)` (R192), 11 cycles. -/
def execDecMem (s : State) : Result :=
  let v := s.atHl
  .next (((s.write8 s.hl (v - 1#8)).setF (decFlags v (v - 1#8) s.getF)).tick 11)

/-- `DEC (II+d)` (R192), 23 cycles. -/
def execDecIdx (ii : Idx) (d : Byte) (s : State) : Result :=
  let v := s.atIi ii d
  .next (((s.write8 (s.ea ii d) (v - 1#8)).setF (decFlags v (v - 1#8) s.getF)).tickPrefixed 23)

/-- `DEC IIH` (R192), 8 cycles. -/
def execDecIih (ii : Idx) (s : State) : Result :=
  let v := s.getP ii .iih
  .next (((s.setF (decFlags v (v - 1#8) s.getF)).setP ii .iih (v - 1#8)).tickPrefixed 8)

/-- `DEC IIL` (R192), 8 cycles. -/
def execDecIil (ii : Idx) (s : State) : Result :=
  let v := s.getP ii .iil
  .next (((s.setF (decFlags v (v - 1#8) s.getF)).setP ii .iil (v - 1#8)).tickPrefixed 8)

/-! ## Accumulator and flag operations (R193 to R197) -/

/-- `DAA` (R193), 4 cycles. -/
def execDaa (s : State) : Result :=
  .next ({ s with af := join (daaResult s.getA s.getF) (daaFlags s.getA s.getF) }.tick 4)

/-- `CPL` (R194), 4 cycles. -/
def execCpl (s : State) : Result :=
  .next ({ s with af := join (~~~s.getA) (cplFlags (~~~s.getA) s.getF) }.tick 4)

/-- `NEG` (R195), 8 cycles: `0 - A` with the flags of `SUB`. -/
def execNeg (s : State) : Result :=
  let o := sub8 0x00#8 s.getA false
  .next ({ s with af := join o.r (aluFlags o o.r) }.tickPrefixed 8)

/-- `SCF` (R196), 4 cycles. -/
def execScf (s : State) : Result :=
  .next ((s.setF (scfFlags s.getA s.getF)).tick 4)

/-- `CCF` (R197), 4 cycles. -/
def execCcf (s : State) : Result :=
  .next ((s.setF (ccfFlags s.getA s.getF)).tick 4)

end Sys2Proof.Machine
end

