-- ==== Sys2Proof/Machine/Bit.lean ====
section
/-! DEFINITION. Bit test, set and reset (spec 45_bit.md): one meaning per row. No instruction here can fault. -/

namespace Sys2Proof.Machine

/-! ## BIT (R270 to R272): nothing is written but `F` -/

/-- `BIT b,r` (R270), 8 cycles: `Y, X` from the register. -/
def execBitReg (b : BitVec 3) (r : Reg8) (s : State) : Result :=
  let v := s.getR r
  .next ((s.setF (bitFlags b (v.getLsbD b.toNat) (yOf v) (xOf v) s.getF)).tickPrefixed 8)

/-- `BIT b,(HL)` (R271), 12 cycles: `Y, X` are a free draw (log 6). -/
def execBitMem (b : BitVec 3) (s : State) : Result :=
  let v := s.atHl
  let yx := Config.bitHlYX s.draws
  .next (({ s with draws := s.draws + 1 }.setF (bitFlags b (v.getLsbD b.toNat) yx.1 yx.2 s.getF)).tickPrefixed 12)

/-- `BIT b,(II+d)` (R272), 20 cycles: `Y, X` from the high byte of the effective address. -/
def execBitIdx (ii : Idx) (d : Byte) (b : BitVec 3) (s : State) : Result :=
  let v := s.atIi ii d
  let h := hi (s.ea ii d)
  .next ((s.setF (bitFlags b (v.getLsbD b.toNat) (yOf h) (xOf h) s.getF)).tickPrefixed 20)

/-! ## SET and RES (R273 to R280): no flag -/

/-- `1 << b`. -/
def bitMask (b : BitVec 3) : Byte := 1#8 <<< b.toNat

/-- `v | (1 << b)`. -/
def bitSet (b : BitVec 3) (v : Byte) : Byte := v ||| bitMask b

/-- `v & ~(1 << b)`. -/
def bitRes (b : BitVec 3) (v : Byte) : Byte := v &&& ~~~(bitMask b)

/-- `SET b,r` (R273), 8 cycles. -/
def execSetReg (b : BitVec 3) (r : Reg8) (s : State) : Result :=
  .next ((s.setR r (bitSet b (s.getR r))).tickPrefixed 8)

/-- `SET b,(HL)` (R274), 15 cycles. -/
def execSetMem (b : BitVec 3) (s : State) : Result :=
  .next ((s.write8 s.hl (bitSet b s.atHl)).tickPrefixed 15)

/-- `SET b,(II+d)` (R275), 23 cycles. -/
def execSetIdx (ii : Idx) (d : Byte) (b : BitVec 3) (s : State) : Result :=
  .next ((s.write8 (s.ea ii d) (bitSet b (s.atIi ii d))).tickPrefixed 23)

/-- `SET b,(II+d),r` (R276), 23 cycles: the result is also copied to `r`. -/
def execSetIdxReg (ii : Idx) (d : Byte) (b : BitVec 3) (r : Reg8) (s : State) : Result :=
  let v := bitSet b (s.atIi ii d)
  .next (((s.write8 (s.ea ii d) v).setR r v).tickPrefixed 23)

/-- `RES b,r` (R277), 8 cycles. -/
def execResReg (b : BitVec 3) (r : Reg8) (s : State) : Result :=
  .next ((s.setR r (bitRes b (s.getR r))).tickPrefixed 8)

/-- `RES b,(HL)` (R278), 15 cycles. -/
def execResMem (b : BitVec 3) (s : State) : Result :=
  .next ((s.write8 s.hl (bitRes b s.atHl)).tickPrefixed 15)

/-- `RES b,(II+d)` (R279), 23 cycles. -/
def execResIdx (ii : Idx) (d : Byte) (b : BitVec 3) (s : State) : Result :=
  .next ((s.write8 (s.ea ii d) (bitRes b (s.atIi ii d))).tickPrefixed 23)

/-- `RES b,(II+d),r` (R280), 23 cycles: the result is also copied to `r`. -/
def execResIdxReg (ii : Idx) (d : Byte) (b : BitVec 3) (r : Reg8) (s : State) : Result :=
  let v := bitRes b (s.atIi ii d)
  .next (((s.write8 (s.ea ii d) v).setR r v).tickPrefixed 23)

end Sys2Proof.Machine
end

