-- ==== Sys2Proof/Machine/Block.lean ====
section
/-! DEFINITION. Block transfer, search, input and output (spec 46_block.md): one meaning per row. One execution is one
element step (R290). No instruction here can fault. -/

namespace Sys2Proof.Machine

/-- The step of the address registers: forward (`+1`) or backward (`-1`). -/
abbrev Step := Word

/-- Forward. -/
def fwd : Step := 1#16

/-- Backward. -/
def bwd : Step := -1#16

/-- One execution of a repeat form (R291): if the continue condition holds, `PC` goes back to the `ED` byte and the
total is 21, else 16. -/
def repeatIf (again : Bool) (s : State) : State :=
  if again then { s with pc := s.pc - 2#16 }.tickPrefixed 21 else s.tickPrefixed 16

/-! ## Block move (R292 to R295) -/

/-- The element step of `LDI` and `LDD`. -/
def moveStep (by_ : Step) (s : State) : State :=
  let t := s.atHl
  let s' := s.write8 s.de t
  { s' with
    hl := s.hl + by_
    de := s.de + by_
    bc := s.bc - 1#16
    af := setLo s.af (blockLdFlags (s.getA + t) (s.bc - 1#16) s.getF) }

/-- `LDI` (R292), 16 cycles. -/
def execLdi (s : State) : Result :=
  .next ((moveStep fwd s).tickPrefixed 16)

/-- `LDD` (R293), 16 cycles. -/
def execLdd (s : State) : Result :=
  .next ((moveStep bwd s).tickPrefixed 16)

/-- `LDIR` (R294): again while `BC ≠ 0`. -/
def execLdir (s : State) : Result :=
  let s' := moveStep fwd s
  .next (repeatIf (s'.bc != 0#16) s')

/-- `LDDR` (R295): again while `BC ≠ 0`. -/
def execLddr (s : State) : Result :=
  let s' := moveStep bwd s
  .next (repeatIf (s'.bc != 0#16) s')

/-! ## Block search (R296 to R299) -/

/-- The element step of `CPI` and `CPD`; `A` is not written. -/
def searchStep (by_ : Step) (s : State) : State :=
  { s with
    hl := s.hl + by_
    bc := s.bc - 1#16
    af := setLo s.af (blockCpFlags s.getA s.atHl (s.bc - 1#16) s.getF) }

/-- `CPI` (R296), 16 cycles. -/
def execCpi (s : State) : Result :=
  .next ((searchStep fwd s).tickPrefixed 16)

/-- `CPD` (R297), 16 cycles. -/
def execCpd (s : State) : Result :=
  .next ((searchStep bwd s).tickPrefixed 16)

/-- `CPIR` (R298): again while `BC ≠ 0` and the element did not match. -/
def execCpir (s : State) : Result :=
  let s' := searchStep fwd s
  .next (repeatIf (s'.bc != 0#16 && !flagZ s'.getF) s')

/-- `CPDR` (R299): again while `BC ≠ 0` and the element did not match. -/
def execCpdr (s : State) : Result :=
  let s' := searchStep bwd s
  .next (repeatIf (s'.bc != 0#16 && !flagZ s'.getF) s')

/-! ## Block input (R300 to R303): IO-class -/

/-- The element step of `INI` and `IND`: the port address is `BC` before `B` is decremented, and `k = t + ((C ± 1) & 0xFF)`;
the byte is stored after the port access. -/
def inputStep (by_ : Step) (s : State) : State :=
  let t := s.ioByte s.bc
  let b := s.getB - 1#8
  let k := t.toNat + (s.getC + lo by_).toNat
  let s' := (s.ioRead s.bc).write8 s.hl t
  { s' with
    hl := s.hl + by_
    bc := setHi s.bc b
    af := setLo s.af (blockIoFlags t k b) }

/-- `INI` (R300), 16 cycles. -/
def execIni (s : State) : Result :=
  .next ((inputStep fwd s).tickPrefixed 16)

/-- `IND` (R301), 16 cycles. -/
def execInd (s : State) : Result :=
  .next ((inputStep bwd s).tickPrefixed 16)

/-- `INIR` (R302): again while `B ≠ 0`. -/
def execInir (s : State) : Result :=
  let s' := inputStep fwd s
  .next (repeatIf (s'.getB != 0#8) s')

/-- `INDR` (R303): again while `B ≠ 0`. -/
def execIndr (s : State) : Result :=
  let s' := inputStep bwd s
  .next (repeatIf (s'.getB != 0#8) s')

/-! ## Block output (R304 to R307): IO-class -/

/-- The element step of `OUTI` and `OUTD`: the port address is `BC` after `B` is decremented, and `k = t + L_new`. -/
def outputStep (by_ : Step) (s : State) : State :=
  let t := s.atHl
  let b := s.getB - 1#8
  let bc := setHi s.bc b
  let hl := s.hl + by_
  let k := t.toNat + (lo hl).toNat
  { s.ioWrite bc t with
    hl := hl
    bc := bc
    af := setLo s.af (blockIoFlags t k b) }

/-- `OUTI` (R304), 16 cycles. -/
def execOuti (s : State) : Result :=
  .next ((outputStep fwd s).tickPrefixed 16)

/-- `OUTD` (R305), 16 cycles. -/
def execOutd (s : State) : Result :=
  .next ((outputStep bwd s).tickPrefixed 16)

/-- `OTIR` (R306): again while `B ≠ 0`. -/
def execOtir (s : State) : Result :=
  let s' := outputStep fwd s
  .next (repeatIf (s'.getB != 0#8) s')

/-- `OTDR` (R307): again while `B ≠ 0`. -/
def execOtdr (s : State) : Result :=
  let s' := outputStep bwd s
  .next (repeatIf (s'.getB != 0#8) s')

end Sys2Proof.Machine
end

