-- ==== Sys2Proof/Machine/Control.lean ====
section
/-! DEFINITION. Jumps, calls, returns and restarts (spec 47_control_transfer.md): one meaning per row. When a meaning runs,
`PC` already is `PC_next` (10_state.md R18). No instruction here changes a flag or can fault. -/

namespace Sys2Proof.Machine

/-! ## Jumps (R320 to R327) -/

/-- `JP nn` (R320), 10 cycles. -/
def execJp (nn : Word) (s : State) : Result :=
  .next ({ s with pc := nn }.tick 10)

/-- `JP cc,nn` (R321), 10 cycles, taken or not. -/
def execJpCc (cc : Cond) (nn : Word) (s : State) : Result :=
  .next ((if s.cond cc then { s with pc := nn } else s).tick 10)

/-- `JR e` (R322, R323), 12 cycles. -/
def execJr (e : Byte) (s : State) : Result :=
  .next ({ s with pc := s.relTarget e }.tick 12)

/-- `JR cc,e` (R324), 12 cycles if taken, else 7. -/
def execJrCc (cc : Cond) (e : Byte) (s : State) : Result :=
  .next (if s.cond cc then { s with pc := s.relTarget e }.tick 12 else s.tick 7)

/-- `DJNZ e` (R325), 13 cycles if taken, else 8. -/
def execDjnz (e : Byte) (s : State) : Result :=
  let b := s.getB - 1#8
  let s' := s.setB b
  .next (if b != 0#8 then { s' with pc := s.relTarget e }.tick 13 else s'.tick 8)

/-- `JP (HL)` (R326), 4 cycles: to the value of `HL`. -/
def execJpHl (s : State) : Result :=
  .next ({ s with pc := s.hl }.tick 4)

/-- `JP (II)` (R327), 8 cycles: to the value of `II`. -/
def execJpIi (ii : Idx) (s : State) : Result :=
  .next ({ s with pc := s.getIi ii }.tickPrefixed 8)

/-! ## Calls, returns and restarts (R330 to R335, R340) -/

/-- `Push16(PC_next); PC <- target` (R330, R340). -/
def callTo (target : Word) (s : State) : State := { s.push16 s.pc with pc := target }

/-- `PC <- Pop16()` (R332). -/
def returnTo (s : State) : State := { s.pop16 with pc := s.top16 }

/-- `CALL nn` (R330), 17 cycles. -/
def execCall (nn : Word) (s : State) : Result :=
  .next ((callTo nn s).tick 17)

/-- `CALL cc,nn` (R331), 17 cycles if taken, else 10. -/
def execCallCc (cc : Cond) (nn : Word) (s : State) : Result :=
  .next (if s.cond cc then (callTo nn s).tick 17 else s.tick 10)

/-- `RET` (R332), 10 cycles. -/
def execRet (s : State) : Result :=
  .next ((returnTo s).tick 10)

/-- `RET cc` (R333), 11 cycles if taken, else 5. -/
def execRetCc (cc : Cond) (s : State) : Result :=
  .next (if s.cond cc then (returnTo s).tick 11 else s.tick 5)

/-- `RETN` (R334), 14 cycles: `PC <- Pop16(); iff1 <- iff2`; `interrupt_status` is not changed. -/
def execRetn (s : State) : Result :=
  .next (s.returnFromInterrupt.tickPrefixed 14)

/-- `RETI` (R335), 14 cycles: as `RETN`. -/
def execReti (s : State) : Result :=
  .next (s.returnFromInterrupt.tickPrefixed 14)

/-- `RST t` (R340), 11 cycles: a call of `8 * y`. -/
def execRst (t : BitVec 3) (s : State) : Result :=
  .next ((callTo (BitVec.ofNat 16 (8 * t.toNat)) s).tick 11)

end Sys2Proof.Machine
end

