-- ==== Sys2Proof/Machine/InOut.lean ====
section
/-! DEFINITION. Port input and output and CPU control (spec 48_io_cpu_control.md): one meaning per row. No instruction here
can fault or is privileged (60_exceptions.md R401). -/

namespace Sys2Proof.Machine

/-! ## Port input and output (R351 to R356): IO-class -/

/-- `IN A,(n)` (R351), 11 cycles: port `A ++ n` with the old `A`; no flag. -/
def execInAN (n : Byte) (s : State) : Result :=
  .next (((s.ioRead (s.portAN n)).setA (s.ioByte (s.portAN n))).tick 11)

/-- `IN r,(C)` (R352), 12 cycles: port `BC` before `r` is written. -/
def execInRegC (r : Reg8) (s : State) : Result :=
  let v := s.ioByte s.bc
  .next ((((s.ioRead s.bc).setF (inFlags v s.getF)).setR r v).tickPrefixed 12)

/-- `IN (C)` (R353), 12 cycles: flags only. -/
def execInFC (s : State) : Result :=
  let v := s.ioByte s.bc
  .next (((s.ioRead s.bc).setF (inFlags v s.getF)).tickPrefixed 12)

/-- `OUT (n),A` (R354), 11 cycles. -/
def execOutNA (n : Byte) (s : State) : Result :=
  .next ((s.ioWrite (s.portAN n) s.getA).tick 11)

/-- `OUT (C),r` (R355), 12 cycles. -/
def execOutCReg (r : Reg8) (s : State) : Result :=
  .next ((s.ioWrite s.bc (s.getR r)).tickPrefixed 12)

/-- `OUT (C),0` (R356), 12 cycles. -/
def execOutCZero (s : State) : Result :=
  .next ((s.ioWrite s.bc 0x00#8).tickPrefixed 12)

/-! ## CPU control (R358 to R365) -/

/-- `NOP` (R358), 4 cycles. -/
def execNop (s : State) : Result :=
  .next (s.tick 4)

/-- `HALT` (R359), 4 cycles: `PC` stays at the byte after the opcode. -/
def execHalt (s : State) : Result :=
  .next ({ s with halted := true, pfx := .halt }.tick 4)

/-- `DI` (R360), 4 cycles. -/
def execDi (s : State) : Result :=
  .next ({ s with iff1 := false, iff2 := false }.tick 4)

/-- `EI` (R361), 4 cycles: the status records `cycles` after they were added. -/
def execEi (s : State) : Result :=
  let s' := s.tick 4
  .next { s' with iff1 := true, iff2 := true, istat := .ei s'.cycles }

/-- `IM 0` (R362), 8 cycles. -/
def execIm0 (s : State) : Result :=
  .next ({ s with im := .im0 }.tickPrefixed 8)

/-- `IM 1` (R363), 8 cycles. -/
def execIm1 (s : State) : Result :=
  .next ({ s with im := .im1 }.tickPrefixed 8)

/-- `IM 2` (R364), 8 cycles. -/
def execIm2 (s : State) : Result :=
  .next ({ s with im := .im2 }.tickPrefixed 8)

/-- `NOP*` (R365), 8 cycles. -/
def execNopEd (s : State) : Result :=
  .next (s.tickPrefixed 8)

end Sys2Proof.Machine
end

