-- ==== Sys2Proof/Machine/Load.lean ====
section
/-! DEFINITION. Loads, stack and exchanges (spec 41_load_exchange.md): one meaning per row. No instruction here can fault. -/

namespace Sys2Proof.Machine

/-! ## 8-bit loads -/

/-- `LD r,r'` (R120), 4 cycles. -/
def execLdRegReg (r : Reg8) (r' : Reg8) (s : State) : Result :=
  let v := s.getR r'
  .next ((s.setR r v).tick 4)

/-- `LD r,n` (R121), 7 cycles. -/
def execLdRegN (r : Reg8) (n : Byte) (s : State) : Result :=
  .next ((s.setR r n).tick 7)

/-- `LD r,(HL)` (R122), 7 cycles: the address is the old `HL`. -/
def execLdRegMem (r : Reg8) (s : State) : Result :=
  .next ((s.setR r s.atHl).tick 7)

/-- `LD (HL),r` (R123), 7 cycles. -/
def execLdMemReg (r : Reg8) (s : State) : Result :=
  .next ((s.write8 s.hl (s.getR r)).tick 7)

/-- `LD (HL),n` (R124), 10 cycles. -/
def execLdMemN (n : Byte) (s : State) : Result :=
  .next ((s.write8 s.hl n).tick 10)

/-- `LD A,(BC)` (R125), 7 cycles. -/
def execLdAMemBc (s : State) : Result :=
  .next ((s.setA (s.read8 s.bc)).tick 7)

/-- `LD A,(DE)` (R126), 7 cycles. -/
def execLdAMemDe (s : State) : Result :=
  .next ((s.setA (s.read8 s.de)).tick 7)

/-- `LD A,(nn)` (R127), 13 cycles. -/
def execLdAMemNn (nn : Word) (s : State) : Result :=
  .next ((s.setA (s.read8 nn)).tick 13)

/-- `LD (BC),A` (R128), 7 cycles. -/
def execLdMemBcA (s : State) : Result :=
  .next ((s.write8 s.bc s.getA).tick 7)

/-- `LD (DE),A` (R129), 7 cycles. -/
def execLdMemDeA (s : State) : Result :=
  .next ((s.write8 s.de s.getA).tick 7)

/-- `LD (nn),A` (R130), 13 cycles. -/
def execLdMemNnA (nn : Word) (s : State) : Result :=
  .next ((s.write8 nn s.getA).tick 13)

/-- `LD r,(II+d)` (R131), 19 cycles: `r` is the real `H`, `L`. -/
def execLdRegIdx (r : Reg8) (ii : Idx) (d : Byte) (s : State) : Result :=
  .next ((s.setR r (s.atIi ii d)).tickPrefixed 19)

/-- `LD (II+d),r` (R132), 19 cycles. -/
def execLdIdxReg (ii : Idx) (d : Byte) (r : Reg8) (s : State) : Result :=
  .next ((s.write8 (s.ea ii d) (s.getR r)).tickPrefixed 19)

/-- `LD (II+d),n` (R133), 19 cycles. -/
def execLdIdxN (ii : Idx) (d : Byte) (n : Byte) (s : State) : Result :=
  .next ((s.write8 (s.ea ii d) n).tickPrefixed 19)

/-- `LD p,p'` (R134), 8 cycles. -/
def execLdPP (ii : Idx) (p : RegP) (p' : RegP) (s : State) : Result :=
  let v := s.getP ii p'
  .next ((s.setP ii p v).tickPrefixed 8)

/-- `LD IIH,n` (R135), 11 cycles. -/
def execLdIihN (ii : Idx) (n : Byte) (s : State) : Result :=
  .next ((s.setP ii .iih n).tickPrefixed 11)

/-- `LD IIL,n` (R135), 11 cycles. -/
def execLdIilN (ii : Idx) (n : Byte) (s : State) : Result :=
  .next ((s.setP ii .iil n).tickPrefixed 11)

/-- Load `A` from a control register and set the flags from it, `P/V` from `iff2` (R136, R137). -/
def ldAFrom (v : Byte) (s : State) : State := { s with af := join v (ldAIFlags v s.getF s.iff2) }

/-- `LD A,I` (R136), 9 cycles. -/
def execLdAI (s : State) : Result :=
  .next ((ldAFrom s.i s).tickPrefixed 9)

/-- `LD A,R` (R137), 9 cycles: `R` as it stands after the fetch counted. -/
def execLdAR (s : State) : Result :=
  .next ((ldAFrom s.r s).tickPrefixed 9)

/-- `LD I,A` (R138), 9 cycles. -/
def execLdIA (s : State) : Result :=
  .next ({ s with i := s.getA }.tickPrefixed 9)

/-- `LD R,A` (R139), 9 cycles: all 8 bits. -/
def execLdRA (s : State) : Result :=
  .next ({ s with r := s.getA }.tickPrefixed 9)

/-! ## 16-bit loads -/

/-- `LD ss,nn` (R140), 10 cycles. -/
def execLdSsNn (ss : Pair) (nn : Word) (s : State) : Result :=
  .next ((s.setSs ss nn).tick 10)

/-- `LD II,nn` (R141), 14 cycles. -/
def execLdIiNn (ii : Idx) (nn : Word) (s : State) : Result :=
  .next ((s.setIi ii nn).tickPrefixed 14)

/-- `LD HL,(nn)` (R142), 16 cycles. -/
def execLdHlMemNn (nn : Word) (s : State) : Result :=
  .next ({ s with hl := s.read16 nn }.tick 16)

/-- `LD ss,(nn)` (R143), 20 cycles. -/
def execLdSsMemNn (ss : Pair) (nn : Word) (s : State) : Result :=
  .next ((s.setSs ss (s.read16 nn)).tickPrefixed 20)

/-- `LD II,(nn)` (R144), 20 cycles. -/
def execLdIiMemNn (ii : Idx) (nn : Word) (s : State) : Result :=
  .next ((s.setIi ii (s.read16 nn)).tickPrefixed 20)

/-- `LD (nn),HL` (R145), 16 cycles. -/
def execLdMemNnHl (nn : Word) (s : State) : Result :=
  .next ((s.write16 nn s.hl).tick 16)

/-- `LD (nn),ss` (R146), 20 cycles. -/
def execLdMemNnSs (nn : Word) (ss : Pair) (s : State) : Result :=
  .next ((s.write16 nn (s.getSs ss)).tickPrefixed 20)

/-- `LD (nn),II` (R147), 20 cycles. -/
def execLdMemNnIi (nn : Word) (ii : Idx) (s : State) : Result :=
  .next ((s.write16 nn (s.getIi ii)).tickPrefixed 20)

/-- `LD SP,HL` (R148), 6 cycles. -/
def execLdSpHl (s : State) : Result :=
  .next ({ s with sp := s.hl }.tick 6)

/-- `LD SP,II` (R149), 10 cycles. -/
def execLdSpIi (ii : Idx) (s : State) : Result :=
  .next ({ s with sp := s.getIi ii }.tickPrefixed 10)

/-! ## Stack -/

/-- `PUSH qq` (R150), 11 cycles. -/
def execPushQq (qq : PairQ) (s : State) : Result :=
  .next ((s.push16 (s.getQq qq)).tick 11)

/-- `PUSH II` (R151), 15 cycles. -/
def execPushIi (ii : Idx) (s : State) : Result :=
  .next ((s.push16 (s.getIi ii)).tickPrefixed 15)

/-- `POP qq` (R152), 10 cycles. -/
def execPopQq (qq : PairQ) (s : State) : Result :=
  .next ((s.pop16.setQq qq s.top16).tick 10)

/-- `POP II` (R153), 14 cycles. -/
def execPopIi (ii : Idx) (s : State) : Result :=
  .next ((s.pop16.setIi ii s.top16).tickPrefixed 14)

/-! ## Exchanges -/

/-- `EX DE,HL` (R160), 4 cycles. -/
def execExDeHl (s : State) : Result :=
  .next ({ s with de := s.hl, hl := s.de }.tick 4)

/-- `EX AF,AF'` (R165), 4 cycles. -/
def execExAfAf (s : State) : Result :=
  let old := s.af
  .next ({ s with af := s.af', af' := old }.tick 4)

/-- `EXX` (R166), 4 cycles. -/
def execExx (s : State) : Result :=
  let (b, d, h) := (s.bc, s.de, s.hl)
  .next ({ s with bc := s.bc', de := s.de', hl := s.hl', bc' := b, de' := d, hl' := h }.tick 4)

/-- Write a word over the word at `SP`, the high byte first (R167, R45 item 5); `SP` is unchanged. -/
def replaceTop (w : Word) (s : State) : State := (s.write8 (s.sp + 1#16) (hi w)).write8 s.sp (lo w)

/-- `EX (SP),HL` (R167), 19 cycles. -/
def execExSpHl (s : State) : Result :=
  .next ({ replaceTop s.hl s with hl := s.top16 }.tick 19)

/-- `EX (SP),II` (R168), 23 cycles. -/
def execExSpIi (ii : Idx) (s : State) : Result :=
  .next (((replaceTop (s.getIi ii) s).setIi ii s.top16).tickPrefixed 23)

end Sys2Proof.Machine
end

