-- ==== Sys2Proof/Machine/Rotate.lean ====
section
/-! DEFINITION. Rotates and shifts (spec 44_rotate_shift.md): one meaning per row. No instruction here can fault. -/

namespace Sys2Proof.Machine

/-! ## The four accumulator rotates (R240 to R243): `S, Z, P` unchanged -/

/-- Rotate `A` by an operation and set the flags of the accumulator rotates. -/
def rotA (f : Byte → Bool → Byte × Bool) (s : State) : State :=
  let o := f s.getA (flagC s.getF)
  { s with af := join o.1 (rotAFlags o.1 s.getF o.2) }

/-- `RLCA` (R240), 4 cycles. -/
def execRlca (s : State) : Result :=
  .next ((rotA rotRlc s).tick 4)

/-- `RRCA` (R241), 4 cycles. -/
def execRrca (s : State) : Result :=
  .next ((rotA rotRrc s).tick 4)

/-- `RLA` (R242), 4 cycles. -/
def execRla (s : State) : Result :=
  .next ((rotA rotRl s).tick 4)

/-- `RRA` (R243), 4 cycles. -/
def execRra (s : State) : Result :=
  .next ((rotA rotRr s).tick 4)

/-! ## The eight `CB` rotates and shifts (R244 to R253)

The operand is read once, the result is written, then the flags are set (R244, R245). -/

/-- Form `r`, 8 cycles (R244). -/
def rotInReg (f : Byte → Bool → Byte × Bool) (r : Reg8) (s : State) : State :=
  let o := f (s.getR r) (flagC s.getF)
  ((s.setF (rotFlags o.1 o.2)).setR r o.1).tickPrefixed 8

/-- Form `(HL)`, 15 cycles (R244). -/
def rotAtHl (f : Byte → Bool → Byte × Bool) (s : State) : State :=
  let o := f s.atHl (flagC s.getF)
  ((s.write8 s.hl o.1).setF (rotFlags o.1 o.2)).tickPrefixed 15

/-- Form `(II+d)`, 23 cycles (R244). -/
def rotAtIi (f : Byte → Bool → Byte × Bool) (ii : Idx) (d : Byte) (s : State) : State :=
  let o := f (s.atIi ii d) (flagC s.getF)
  ((s.write8 (s.ea ii d) o.1).setF (rotFlags o.1 o.2)).tickPrefixed 23

/-- Form `(II+d),r`, 23 cycles: the result is also copied to `r` (R244). -/
def rotAtIiReg (f : Byte → Bool → Byte × Bool) (ii : Idx) (d : Byte) (r : Reg8) (s : State) : State :=
  let o := f (s.atIi ii d) (flagC s.getF)
  (((s.write8 (s.ea ii d) o.1).setF (rotFlags o.1 o.2)).setR r o.1).tickPrefixed 23

/-- `RLC r` (R246). -/
def execRlcReg (r : Reg8) (s : State) : Result :=
  .next (rotInReg rotRlc r s)

/-- `RLC (HL)` (R246). -/
def execRlcMem (s : State) : Result :=
  .next (rotAtHl rotRlc s)

/-- `RLC (II+d)` (R246). -/
def execRlcIdx (ii : Idx) (d : Byte) (s : State) : Result :=
  .next (rotAtIi rotRlc ii d s)

/-- `RLC (II+d),r` (R246). -/
def execRlcIdxReg (ii : Idx) (d : Byte) (r : Reg8) (s : State) : Result :=
  .next (rotAtIiReg rotRlc ii d r s)

/-- `RRC r` (R247). -/
def execRrcReg (r : Reg8) (s : State) : Result :=
  .next (rotInReg rotRrc r s)

/-- `RRC (HL)` (R247). -/
def execRrcMem (s : State) : Result :=
  .next (rotAtHl rotRrc s)

/-- `RRC (II+d)` (R247). -/
def execRrcIdx (ii : Idx) (d : Byte) (s : State) : Result :=
  .next (rotAtIi rotRrc ii d s)

/-- `RRC (II+d),r` (R247). -/
def execRrcIdxReg (ii : Idx) (d : Byte) (r : Reg8) (s : State) : Result :=
  .next (rotAtIiReg rotRrc ii d r s)

/-- `RL r` (R248). -/
def execRlReg (r : Reg8) (s : State) : Result :=
  .next (rotInReg rotRl r s)

/-- `RL (HL)` (R248). -/
def execRlMem (s : State) : Result :=
  .next (rotAtHl rotRl s)

/-- `RL (II+d)` (R248). -/
def execRlIdx (ii : Idx) (d : Byte) (s : State) : Result :=
  .next (rotAtIi rotRl ii d s)

/-- `RL (II+d),r` (R248). -/
def execRlIdxReg (ii : Idx) (d : Byte) (r : Reg8) (s : State) : Result :=
  .next (rotAtIiReg rotRl ii d r s)

/-- `RR r` (R249). -/
def execRrReg (r : Reg8) (s : State) : Result :=
  .next (rotInReg rotRr r s)

/-- `RR (HL)` (R249). -/
def execRrMem (s : State) : Result :=
  .next (rotAtHl rotRr s)

/-- `RR (II+d)` (R249). -/
def execRrIdx (ii : Idx) (d : Byte) (s : State) : Result :=
  .next (rotAtIi rotRr ii d s)

/-- `RR (II+d),r` (R249). -/
def execRrIdxReg (ii : Idx) (d : Byte) (r : Reg8) (s : State) : Result :=
  .next (rotAtIiReg rotRr ii d r s)

/-- `SLA r` (R250). -/
def execSlaReg (r : Reg8) (s : State) : Result :=
  .next (rotInReg rotSla r s)

/-- `SLA (HL)` (R250). -/
def execSlaMem (s : State) : Result :=
  .next (rotAtHl rotSla s)

/-- `SLA (II+d)` (R250). -/
def execSlaIdx (ii : Idx) (d : Byte) (s : State) : Result :=
  .next (rotAtIi rotSla ii d s)

/-- `SLA (II+d),r` (R250). -/
def execSlaIdxReg (ii : Idx) (d : Byte) (r : Reg8) (s : State) : Result :=
  .next (rotAtIiReg rotSla ii d r s)

/-- `SRA r` (R251). -/
def execSraReg (r : Reg8) (s : State) : Result :=
  .next (rotInReg rotSra r s)

/-- `SRA (HL)` (R251). -/
def execSraMem (s : State) : Result :=
  .next (rotAtHl rotSra s)

/-- `SRA (II+d)` (R251). -/
def execSraIdx (ii : Idx) (d : Byte) (s : State) : Result :=
  .next (rotAtIi rotSra ii d s)

/-- `SRA (II+d),r` (R251). -/
def execSraIdxReg (ii : Idx) (d : Byte) (r : Reg8) (s : State) : Result :=
  .next (rotAtIiReg rotSra ii d r s)

/-- `SLL r` (R252). -/
def execSllReg (r : Reg8) (s : State) : Result :=
  .next (rotInReg rotSll r s)

/-- `SLL (HL)` (R252). -/
def execSllMem (s : State) : Result :=
  .next (rotAtHl rotSll s)

/-- `SLL (II+d)` (R252). -/
def execSllIdx (ii : Idx) (d : Byte) (s : State) : Result :=
  .next (rotAtIi rotSll ii d s)

/-- `SLL (II+d),r` (R252). -/
def execSllIdxReg (ii : Idx) (d : Byte) (r : Reg8) (s : State) : Result :=
  .next (rotAtIiReg rotSll ii d r s)

/-- `SRL r` (R253). -/
def execSrlReg (r : Reg8) (s : State) : Result :=
  .next (rotInReg rotSrl r s)

/-- `SRL (HL)` (R253). -/
def execSrlMem (s : State) : Result :=
  .next (rotAtHl rotSrl s)

/-- `SRL (II+d)` (R253). -/
def execSrlIdx (ii : Idx) (d : Byte) (s : State) : Result :=
  .next (rotAtIi rotSrl ii d s)

/-- `SRL (II+d),r` (R253). -/
def execSrlIdxReg (ii : Idx) (d : Byte) (r : Reg8) (s : State) : Result :=
  .next (rotAtIiReg rotSrl ii d r s)

/-! ## The two decimal rotates (R254, R255) -/

/-- Store `m` at `(HL)`, load `A` and set the flags from the new `A`, `C` kept (R254, R255). -/
def digitRotate (m a : Byte) (s : State) : State :=
  { s.write8 s.hl m with af := join a (inFlags a s.getF) }

/-- `RLD` (R254), 18 cycles. -/
def execRld (s : State) : Result :=
  let (t, a) := (s.atHl, s.getA)
  .next ((digitRotate (t <<< 4 ||| (a &&& 0x0F#8)) ((a &&& 0xF0#8) ||| t >>> 4) s).tickPrefixed 18)

/-- `RRD` (R255), 18 cycles. -/
def execRrd (s : State) : Result :=
  let (t, a) := (s.atHl, s.getA)
  .next ((digitRotate (a <<< 4 ||| t >>> 4) ((a &&& 0xF0#8) ||| (t &&& 0x0F#8)) s).tickPrefixed 18)

end Sys2Proof.Machine
end

