-- ==== Sys2Proof/Machine/Prefixes.lean ====
section
/-! DEFINITION. The rows that are no instruction of their own (spec 30_encoding.md R70 to R72, R78): the prefix bytes, and
the fallback row of tables `DD`/`FD`, which is the `NP` row of the same opcode. -/

namespace Sys2Proof.Machine

/-! ## Prefix bytes in table `NP` (R70): the decode state moves, 4 cycles -/

/-- Prefix `CB` met in table `NP`. -/
def execPrefixCb (s : State) : Result :=
  .next ({ s with pfx := .cb }.tick 4)

/-- Prefix `DD` met in table `NP`. -/
def execPrefixDd (s : State) : Result :=
  .next ({ s with pfx := .dd }.tick 4)

/-- Prefix `ED` met in table `NP`. -/
def execPrefixEd (s : State) : Result :=
  .next ({ s with pfx := .ed }.tick 4)

/-- Prefix `FD` met in table `NP`. -/
def execPrefixFd (s : State) : Result :=
  .next ({ s with pfx := .fd }.tick 4)

/-! ## Prefix bytes in tables `DD` and `FD` (R71, R99) -/

/-- The decode state `DdCb` or `FdCb` of an index register. -/
def pfxXyCb : Idx → Pfx
  | .ix => .ddcb
  | .iy => .fdcb

/-- Prefix `CB` met in table `DD` or `FD`: 0 cycles here (R99). -/
def execPrefixCbXy (ii : Idx) (s : State) : Result :=
  .next ({ s with pfx := pfxXyCb ii }.tick 0)

/-- Prefix `DD` met in table `DD` or `FD`: the earlier prefix is forgotten, 4 cycles. -/
def execPrefixDdXy (s : State) : Result :=
  .next ({ s with pfx := .dd }.tick 4)

/-- Prefix `FD` met in table `DD` or `FD`: the earlier prefix is forgotten, 4 cycles. -/
def execPrefixFdXy (s : State) : Result :=
  .next ({ s with pfx := .fd }.tick 4)

/-- Prefix `ED` met in table `DD` or `FD`: the earlier prefix is forgotten, 4 cycles. -/
def execPrefixEdXy (s : State) : Result :=
  .next ({ s with pfx := .ed }.tick 4)

/-! ## The `NP` entry met in table `DD` or `FD`, unchanged (R72 item 5) -/

/-- The instruction executes exactly as in table `NP` (R72 item 5): the same meaning, on the state after its own bytes.
The prefix byte has added its 4 cycles already, so this iteration adds the `NP` row's count (R99). A term that is no row
of table `NP` cannot come from the decoder: it has no entry (log 14). -/
def execNpUnchanged (i : Instr) (s : State) : Result :=
  match i with
  | .nop => execNop s
  | .exAfAf => execExAfAf s
  | .djnz e => execDjnz e s
  | .jr e => execJr e s
  | .jrCc cc e => execJrCc cc e s
  | .ldSsNn ss nn => execLdSsNn ss nn s
  | .addHlSs ss => execAddHlSs ss s
  | .ldMemBcA => execLdMemBcA s
  | .ldMemDeA => execLdMemDeA s
  | .ldMemNnHl nn => execLdMemNnHl nn s
  | .ldMemNnA nn => execLdMemNnA nn s
  | .ldAMemBc => execLdAMemBc s
  | .ldAMemDe => execLdAMemDe s
  | .ldHlMemNn nn => execLdHlMemNn nn s
  | .ldAMemNn nn => execLdAMemNn nn s
  | .incSs ss => execIncSs ss s
  | .decSs ss => execDecSs ss s
  | .incReg r => execIncReg r s
  | .incMem => execIncMem s
  | .decReg r => execDecReg r s
  | .decMem => execDecMem s
  | .ldRegN r n => execLdRegN r n s
  | .ldMemN n => execLdMemN n s
  | .rlca => execRlca s
  | .rrca => execRrca s
  | .rla => execRla s
  | .rra => execRra s
  | .daa => execDaa s
  | .cpl => execCpl s
  | .scf => execScf s
  | .ccf => execCcf s
  | .ldRegReg r r' => execLdRegReg r r' s
  | .ldRegMem r => execLdRegMem r s
  | .ldMemReg r => execLdMemReg r s
  | .halt => execHalt s
  | .addReg r => execAddReg r s
  | .addMem => execAddMem s
  | .addN n => execAddN n s
  | .adcReg r => execAdcReg r s
  | .adcMem => execAdcMem s
  | .adcN n => execAdcN n s
  | .subReg r => execSubReg r s
  | .subMem => execSubMem s
  | .subN n => execSubN n s
  | .sbcReg r => execSbcReg r s
  | .sbcMem => execSbcMem s
  | .sbcN n => execSbcN n s
  | .andReg r => execAndReg r s
  | .andMem => execAndMem s
  | .andN n => execAndN n s
  | .xorReg r => execXorReg r s
  | .xorMem => execXorMem s
  | .xorN n => execXorN n s
  | .orReg r => execOrReg r s
  | .orMem => execOrMem s
  | .orN n => execOrN n s
  | .cpReg r => execCpReg r s
  | .cpMem => execCpMem s
  | .cpN n => execCpN n s
  | .retCc cc => execRetCc cc s
  | .popQq qq => execPopQq qq s
  | .ret => execRet s
  | .exx => execExx s
  | .jpHl => execJpHl s
  | .ldSpHl => execLdSpHl s
  | .jpCc cc nn => execJpCc cc nn s
  | .jp nn => execJp nn s
  | .prefixCb => execPrefixCb s
  | .outNA n => execOutNA n s
  | .inAN n => execInAN n s
  | .exSpHl => execExSpHl s
  | .exDeHl => execExDeHl s
  | .di => execDi s
  | .ei => execEi s
  | .callCc cc nn => execCallCc cc nn s
  | .pushQq qq => execPushQq qq s
  | .call nn => execCall nn s
  | .prefixDd => execPrefixDd s
  | .prefixEd => execPrefixEd s
  | .prefixFd => execPrefixFd s
  | .rst t => execRst t s
  | .rlcReg _ | .rlcMem | .rrcReg _ | .rrcMem | .rlReg _ | .rlMem | .rrReg _ | .rrMem | .slaReg _ | .slaMem
  | .sraReg _ | .sraMem | .sllReg _ | .sllMem | .srlReg _ | .srlMem | .bitReg _ _ | .bitMem _ | .resReg _ _
  | .resMem _ | .setReg _ _ | .setMem _ | .inRegC _ | .inFC | .outCReg _ | .outCZero | .sbcHlSs _ | .adcHlSs _
  | .ldMemNnSs _ _ | .ldSsMemNn _ _ | .neg _ | .retn _ | .reti | .im0 _ | .im1 _ | .im2 _ | .ldIA | .ldRA
  | .ldAI | .ldAR | .rrd | .rld | .ldi | .cpi | .ini | .outi | .ldd | .cpd | .ind | .outd | .ldir | .cpir
  | .inir | .otir | .lddr | .cpdr | .indr | .otdr | .nopEd _ | .incIdx _ _ | .decIdx _ _ | .ldIdxN _ _ _
  | .ldRegIdx _ _ _ | .ldIdxReg _ _ _ | .addIdx _ _ | .adcIdx _ _ | .subIdx _ _ | .sbcIdx _ _ | .andIdx _ _
  | .xorIdx _ _ | .orIdx _ _ | .cpIdx _ _ | .addIiPp _ _ | .ldIiNn _ _ | .ldMemNnIi _ _ | .ldIiMemNn _ _
  | .incIi _ | .decIi _ | .popIi _ | .exSpIi _ | .pushIi _ | .jpIi _ | .ldSpIi _ | .incIih _ | .decIih _
  | .ldIihN _ _ | .incIil _ | .decIil _ | .ldIilN _ _ | .ldPP _ _ _ | .addIih _ | .addIil _ | .adcIih _
  | .adcIil _ | .subIih _ | .subIil _ | .sbcIih _ | .sbcIil _ | .andIih _ | .andIil _ | .xorIih _ | .xorIil _
  | .orIih _ | .orIil _ | .cpIih _ | .cpIil _ | .prefixCbXy _ | .prefixDdXy _ | .prefixFdXy _ | .prefixEdXy _
  | .npUnchanged _ _ | .rlcIdx _ _ | .rlcIdxReg _ _ _ | .rrcIdx _ _ | .rrcIdxReg _ _ _ | .rlIdx _ _
  | .rlIdxReg _ _ _ | .rrIdx _ _ | .rrIdxReg _ _ _ | .slaIdx _ _ | .slaIdxReg _ _ _ | .sraIdx _ _
  | .sraIdxReg _ _ _ | .sllIdx _ _ | .sllIdxReg _ _ _ | .srlIdx _ _ | .srlIdxReg _ _ _ | .bitIdx _ _ _ _
  | .resIdx _ _ _ | .resIdxReg _ _ _ _ | .setIdx _ _ _ | .setIdxReg _ _ _ _ => .fault .invalidDecodeState

end Sys2Proof.Machine
end

