-- ==== Sys2Proof/Machine/Dispatch.lean ====
section
/-! DEFINITION. The dispatch: one arm per row of spec/opcode_table.json, each one call of that row's own meaning. -/

namespace Sys2Proof.Machine

def exec (i : Instr) (s : State) : Host.Outcome State Fault Refusal :=
  match i with
  -- table NP
  | .nop => Sys2Proof.Machine.execNop s
  | .exAfAf => Sys2Proof.Machine.execExAfAf s
  | .djnz e => Sys2Proof.Machine.execDjnz e s
  | .jr e => Sys2Proof.Machine.execJr e s
  | .jrCc cc e => Sys2Proof.Machine.execJrCc cc e s
  | .ldSsNn ss nn => Sys2Proof.Machine.execLdSsNn ss nn s
  | .addHlSs ss => Sys2Proof.Machine.execAddHlSs ss s
  | .ldMemBcA => Sys2Proof.Machine.execLdMemBcA s
  | .ldMemDeA => Sys2Proof.Machine.execLdMemDeA s
  | .ldMemNnHl nn => Sys2Proof.Machine.execLdMemNnHl nn s
  | .ldMemNnA nn => Sys2Proof.Machine.execLdMemNnA nn s
  | .ldAMemBc => Sys2Proof.Machine.execLdAMemBc s
  | .ldAMemDe => Sys2Proof.Machine.execLdAMemDe s
  | .ldHlMemNn nn => Sys2Proof.Machine.execLdHlMemNn nn s
  | .ldAMemNn nn => Sys2Proof.Machine.execLdAMemNn nn s
  | .incSs ss => Sys2Proof.Machine.execIncSs ss s
  | .decSs ss => Sys2Proof.Machine.execDecSs ss s
  | .incReg r => Sys2Proof.Machine.execIncReg r s
  | .incMem => Sys2Proof.Machine.execIncMem s
  | .decReg r => Sys2Proof.Machine.execDecReg r s
  | .decMem => Sys2Proof.Machine.execDecMem s
  | .ldRegN r n => Sys2Proof.Machine.execLdRegN r n s
  | .ldMemN n => Sys2Proof.Machine.execLdMemN n s
  | .rlca => Sys2Proof.Machine.execRlca s
  | .rrca => Sys2Proof.Machine.execRrca s
  | .rla => Sys2Proof.Machine.execRla s
  | .rra => Sys2Proof.Machine.execRra s
  | .daa => Sys2Proof.Machine.execDaa s
  | .cpl => Sys2Proof.Machine.execCpl s
  | .scf => Sys2Proof.Machine.execScf s
  | .ccf => Sys2Proof.Machine.execCcf s
  | .ldRegReg r r' => Sys2Proof.Machine.execLdRegReg r r' s
  | .ldRegMem r => Sys2Proof.Machine.execLdRegMem r s
  | .ldMemReg r => Sys2Proof.Machine.execLdMemReg r s
  | .halt => Sys2Proof.Machine.execHalt s
  | .addReg r => Sys2Proof.Machine.execAddReg r s
  | .addMem => Sys2Proof.Machine.execAddMem s
  | .addN n => Sys2Proof.Machine.execAddN n s
  | .adcReg r => Sys2Proof.Machine.execAdcReg r s
  | .adcMem => Sys2Proof.Machine.execAdcMem s
  | .adcN n => Sys2Proof.Machine.execAdcN n s
  | .subReg r => Sys2Proof.Machine.execSubReg r s
  | .subMem => Sys2Proof.Machine.execSubMem s
  | .subN n => Sys2Proof.Machine.execSubN n s
  | .sbcReg r => Sys2Proof.Machine.execSbcReg r s
  | .sbcMem => Sys2Proof.Machine.execSbcMem s
  | .sbcN n => Sys2Proof.Machine.execSbcN n s
  | .andReg r => Sys2Proof.Machine.execAndReg r s
  | .andMem => Sys2Proof.Machine.execAndMem s
  | .andN n => Sys2Proof.Machine.execAndN n s
  | .xorReg r => Sys2Proof.Machine.execXorReg r s
  | .xorMem => Sys2Proof.Machine.execXorMem s
  | .xorN n => Sys2Proof.Machine.execXorN n s
  | .orReg r => Sys2Proof.Machine.execOrReg r s
  | .orMem => Sys2Proof.Machine.execOrMem s
  | .orN n => Sys2Proof.Machine.execOrN n s
  | .cpReg r => Sys2Proof.Machine.execCpReg r s
  | .cpMem => Sys2Proof.Machine.execCpMem s
  | .cpN n => Sys2Proof.Machine.execCpN n s
  | .retCc cc => Sys2Proof.Machine.execRetCc cc s
  | .popQq qq => Sys2Proof.Machine.execPopQq qq s
  | .ret => Sys2Proof.Machine.execRet s
  | .exx => Sys2Proof.Machine.execExx s
  | .jpHl => Sys2Proof.Machine.execJpHl s
  | .ldSpHl => Sys2Proof.Machine.execLdSpHl s
  | .jpCc cc nn => Sys2Proof.Machine.execJpCc cc nn s
  | .jp nn => Sys2Proof.Machine.execJp nn s
  | .prefixCb => Sys2Proof.Machine.execPrefixCb s
  | .outNA n => Sys2Proof.Machine.execOutNA n s
  | .inAN n => Sys2Proof.Machine.execInAN n s
  | .exSpHl => Sys2Proof.Machine.execExSpHl s
  | .exDeHl => Sys2Proof.Machine.execExDeHl s
  | .di => Sys2Proof.Machine.execDi s
  | .ei => Sys2Proof.Machine.execEi s
  | .callCc cc nn => Sys2Proof.Machine.execCallCc cc nn s
  | .pushQq qq => Sys2Proof.Machine.execPushQq qq s
  | .call nn => Sys2Proof.Machine.execCall nn s
  | .prefixDd => Sys2Proof.Machine.execPrefixDd s
  | .prefixEd => Sys2Proof.Machine.execPrefixEd s
  | .prefixFd => Sys2Proof.Machine.execPrefixFd s
  | .rst t => Sys2Proof.Machine.execRst t s
  -- table CB
  | .rlcReg r => Sys2Proof.Machine.execRlcReg r s
  | .rlcMem => Sys2Proof.Machine.execRlcMem s
  | .rrcReg r => Sys2Proof.Machine.execRrcReg r s
  | .rrcMem => Sys2Proof.Machine.execRrcMem s
  | .rlReg r => Sys2Proof.Machine.execRlReg r s
  | .rlMem => Sys2Proof.Machine.execRlMem s
  | .rrReg r => Sys2Proof.Machine.execRrReg r s
  | .rrMem => Sys2Proof.Machine.execRrMem s
  | .slaReg r => Sys2Proof.Machine.execSlaReg r s
  | .slaMem => Sys2Proof.Machine.execSlaMem s
  | .sraReg r => Sys2Proof.Machine.execSraReg r s
  | .sraMem => Sys2Proof.Machine.execSraMem s
  | .sllReg r => Sys2Proof.Machine.execSllReg r s
  | .sllMem => Sys2Proof.Machine.execSllMem s
  | .srlReg r => Sys2Proof.Machine.execSrlReg r s
  | .srlMem => Sys2Proof.Machine.execSrlMem s
  | .bitReg b r => Sys2Proof.Machine.execBitReg b r s
  | .bitMem b => Sys2Proof.Machine.execBitMem b s
  | .resReg b r => Sys2Proof.Machine.execResReg b r s
  | .resMem b => Sys2Proof.Machine.execResMem b s
  | .setReg b r => Sys2Proof.Machine.execSetReg b r s
  | .setMem b => Sys2Proof.Machine.execSetMem b s
  -- table ED
  | .inRegC r => Sys2Proof.Machine.execInRegC r s
  | .inFC => Sys2Proof.Machine.execInFC s
  | .outCReg r => Sys2Proof.Machine.execOutCReg r s
  | .outCZero => Sys2Proof.Machine.execOutCZero s
  | .sbcHlSs ss => Sys2Proof.Machine.execSbcHlSs ss s
  | .adcHlSs ss => Sys2Proof.Machine.execAdcHlSs ss s
  | .ldMemNnSs nn ss => Sys2Proof.Machine.execLdMemNnSs nn ss s
  | .ldSsMemNn ss nn => Sys2Proof.Machine.execLdSsMemNn ss nn s
  | .neg _ => Sys2Proof.Machine.execNeg s
  | .retn _ => Sys2Proof.Machine.execRetn s
  | .reti => Sys2Proof.Machine.execReti s
  | .im0 _ => Sys2Proof.Machine.execIm0 s
  | .im1 _ => Sys2Proof.Machine.execIm1 s
  | .im2 _ => Sys2Proof.Machine.execIm2 s
  | .ldIA => Sys2Proof.Machine.execLdIA s
  | .ldRA => Sys2Proof.Machine.execLdRA s
  | .ldAI => Sys2Proof.Machine.execLdAI s
  | .ldAR => Sys2Proof.Machine.execLdAR s
  | .rrd => Sys2Proof.Machine.execRrd s
  | .rld => Sys2Proof.Machine.execRld s
  | .ldi => Sys2Proof.Machine.execLdi s
  | .cpi => Sys2Proof.Machine.execCpi s
  | .ini => Sys2Proof.Machine.execIni s
  | .outi => Sys2Proof.Machine.execOuti s
  | .ldd => Sys2Proof.Machine.execLdd s
  | .cpd => Sys2Proof.Machine.execCpd s
  | .ind => Sys2Proof.Machine.execInd s
  | .outd => Sys2Proof.Machine.execOutd s
  | .ldir => Sys2Proof.Machine.execLdir s
  | .cpir => Sys2Proof.Machine.execCpir s
  | .inir => Sys2Proof.Machine.execInir s
  | .otir => Sys2Proof.Machine.execOtir s
  | .lddr => Sys2Proof.Machine.execLddr s
  | .cpdr => Sys2Proof.Machine.execCpdr s
  | .indr => Sys2Proof.Machine.execIndr s
  | .otdr => Sys2Proof.Machine.execOtdr s
  | .nopEd _ => Sys2Proof.Machine.execNopEd s
  -- tables DD and FD
  | .incIdx ii d => Sys2Proof.Machine.execIncIdx ii d s
  | .decIdx ii d => Sys2Proof.Machine.execDecIdx ii d s
  | .ldIdxN ii d n => Sys2Proof.Machine.execLdIdxN ii d n s
  | .ldRegIdx r ii d => Sys2Proof.Machine.execLdRegIdx r ii d s
  | .ldIdxReg ii d r => Sys2Proof.Machine.execLdIdxReg ii d r s
  | .addIdx ii d => Sys2Proof.Machine.execAddIdx ii d s
  | .adcIdx ii d => Sys2Proof.Machine.execAdcIdx ii d s
  | .subIdx ii d => Sys2Proof.Machine.execSubIdx ii d s
  | .sbcIdx ii d => Sys2Proof.Machine.execSbcIdx ii d s
  | .andIdx ii d => Sys2Proof.Machine.execAndIdx ii d s
  | .xorIdx ii d => Sys2Proof.Machine.execXorIdx ii d s
  | .orIdx ii d => Sys2Proof.Machine.execOrIdx ii d s
  | .cpIdx ii d => Sys2Proof.Machine.execCpIdx ii d s
  | .addIiPp ii pp => Sys2Proof.Machine.execAddIiPp ii pp s
  | .ldIiNn ii nn => Sys2Proof.Machine.execLdIiNn ii nn s
  | .ldMemNnIi nn ii => Sys2Proof.Machine.execLdMemNnIi nn ii s
  | .ldIiMemNn ii nn => Sys2Proof.Machine.execLdIiMemNn ii nn s
  | .incIi ii => Sys2Proof.Machine.execIncIi ii s
  | .decIi ii => Sys2Proof.Machine.execDecIi ii s
  | .popIi ii => Sys2Proof.Machine.execPopIi ii s
  | .exSpIi ii => Sys2Proof.Machine.execExSpIi ii s
  | .pushIi ii => Sys2Proof.Machine.execPushIi ii s
  | .jpIi ii => Sys2Proof.Machine.execJpIi ii s
  | .ldSpIi ii => Sys2Proof.Machine.execLdSpIi ii s
  | .incIih ii => Sys2Proof.Machine.execIncIih ii s
  | .decIih ii => Sys2Proof.Machine.execDecIih ii s
  | .ldIihN ii n => Sys2Proof.Machine.execLdIihN ii n s
  | .incIil ii => Sys2Proof.Machine.execIncIil ii s
  | .decIil ii => Sys2Proof.Machine.execDecIil ii s
  | .ldIilN ii n => Sys2Proof.Machine.execLdIilN ii n s
  | .ldPP ii p p' => Sys2Proof.Machine.execLdPP ii p p' s
  | .addIih ii => Sys2Proof.Machine.execAddIih ii s
  | .addIil ii => Sys2Proof.Machine.execAddIil ii s
  | .adcIih ii => Sys2Proof.Machine.execAdcIih ii s
  | .adcIil ii => Sys2Proof.Machine.execAdcIil ii s
  | .subIih ii => Sys2Proof.Machine.execSubIih ii s
  | .subIil ii => Sys2Proof.Machine.execSubIil ii s
  | .sbcIih ii => Sys2Proof.Machine.execSbcIih ii s
  | .sbcIil ii => Sys2Proof.Machine.execSbcIil ii s
  | .andIih ii => Sys2Proof.Machine.execAndIih ii s
  | .andIil ii => Sys2Proof.Machine.execAndIil ii s
  | .xorIih ii => Sys2Proof.Machine.execXorIih ii s
  | .xorIil ii => Sys2Proof.Machine.execXorIil ii s
  | .orIih ii => Sys2Proof.Machine.execOrIih ii s
  | .orIil ii => Sys2Proof.Machine.execOrIil ii s
  | .cpIih ii => Sys2Proof.Machine.execCpIih ii s
  | .cpIil ii => Sys2Proof.Machine.execCpIil ii s
  | .prefixCbXy ii => Sys2Proof.Machine.execPrefixCbXy ii s
  | .prefixDdXy _ => Sys2Proof.Machine.execPrefixDdXy s
  | .prefixFdXy _ => Sys2Proof.Machine.execPrefixFdXy s
  | .prefixEdXy _ => Sys2Proof.Machine.execPrefixEdXy s
  | .npUnchanged _ inner => Sys2Proof.Machine.execNpUnchanged inner s
  -- tables DDCB and FDCB
  | .rlcIdx ii d => Sys2Proof.Machine.execRlcIdx ii d s
  | .rlcIdxReg ii d r => Sys2Proof.Machine.execRlcIdxReg ii d r s
  | .rrcIdx ii d => Sys2Proof.Machine.execRrcIdx ii d s
  | .rrcIdxReg ii d r => Sys2Proof.Machine.execRrcIdxReg ii d r s
  | .rlIdx ii d => Sys2Proof.Machine.execRlIdx ii d s
  | .rlIdxReg ii d r => Sys2Proof.Machine.execRlIdxReg ii d r s
  | .rrIdx ii d => Sys2Proof.Machine.execRrIdx ii d s
  | .rrIdxReg ii d r => Sys2Proof.Machine.execRrIdxReg ii d r s
  | .slaIdx ii d => Sys2Proof.Machine.execSlaIdx ii d s
  | .slaIdxReg ii d r => Sys2Proof.Machine.execSlaIdxReg ii d r s
  | .sraIdx ii d => Sys2Proof.Machine.execSraIdx ii d s
  | .sraIdxReg ii d r => Sys2Proof.Machine.execSraIdxReg ii d r s
  | .sllIdx ii d => Sys2Proof.Machine.execSllIdx ii d s
  | .sllIdxReg ii d r => Sys2Proof.Machine.execSllIdxReg ii d r s
  | .srlIdx ii d => Sys2Proof.Machine.execSrlIdx ii d s
  | .srlIdxReg ii d r => Sys2Proof.Machine.execSrlIdxReg ii d r s
  | .bitIdx ii d b _ => Sys2Proof.Machine.execBitIdx ii d b s
  | .resIdx ii d b => Sys2Proof.Machine.execResIdx ii d b s
  | .resIdxReg ii d b r => Sys2Proof.Machine.execResIdxReg ii d b r s
  | .setIdx ii d b => Sys2Proof.Machine.execSetIdx ii d b s
  | .setIdxReg ii d b r => Sys2Proof.Machine.execSetIdxReg ii d b r s

end Sys2Proof.Machine
end

