-- ==== Sys2Proof/Machine/Fetch.lean ====
section
/-! DEFINITION. The dispatch iteration's choice (spec 40_dispatch.md R91, R98) and the fetching of an instruction's bytes
(R94 to R97, 20_memory.md R45 item 1). -/

namespace Sys2Proof.Machine

/-- What one dispatch iteration does (R91). -/
inductive Iteration where
  /-- an interrupt check and nothing else (R98) -/
  | check
  /-- the halted core spins to the target (R93) -/
  | spin
  /-- fetch and execute an entry of this table (R94 to R97) -/
  | fetch (t : Table)
  deriving DecidableEq, Repr

namespace State

/-- The transition table (R91): the status is consulted only at an instruction boundary. -/
def iteration (s : State) : Iteration :=
  match s.pfx with
  | .halt => if s.checkDue then .check else .spin
  | .noPrefix => if s.checkDue then .check else .fetch .np
  | .cb => .fetch .cb
  | .ed => .fetch .ed
  | .dd => .fetch .dd
  | .fd => .fetch .fd
  | .ddcb => .fetch .ddcb
  | .fdcb => .fetch .fdcb

/-- What the iteration does before it fetches: `IncR()` for tables `NP`, `DD`, `FD` only, and `prefix <- NoPrefix` in the
middle of an instruction (R94 to R97, R21). -/
def beginFetch (s : State) (t : Table) : State :=
  match t with
  | .np => s.incR
  | .dd | .fd => { s.incR with pfx := .noPrefix }
  | .cb | .ed | .ddcb | .fdcb => { s with pfx := .noPrefix }

/-- The bytes at `PC` that one iteration can fetch, at most three (R60), wrapping (R18). -/
def window (s : State) : List Byte := [s.read8 s.pc, s.read8 (s.pc + 1#16), s.read8 (s.pc + 2#16)]

/-- Read one entry of a table at `PC`: the instruction, and the state with `PC` after its last byte (R18). All bytes are
fetched before the operation runs (R45 item 1; log 15). -/
def fetchEntry (s : State) (t : Table) : Option (Instr × State) :=
  match decodeIn t s.window with
  | .ok (i, rest) => some (i, { s with pc := s.pc + BitVec.ofNat 16 (3 - rest.length) })
  | .error _ => none

/-- Store bytes at consecutive addresses, wrapping. -/
def poke (s : State) (a : Word) : List Byte → State
  | [] => s
  | v :: vs => (s.write8 a v).poke (a + 1#16) vs

end State

/-- The decode state in which a table's entries are read. -/
def pfxOf : Table → Pfx
  | .np => .noPrefix
  | .cb => .cb
  | .ed => .ed
  | .dd => .dd
  | .fd => .fd
  | .ddcb => .ddcb
  | .fdcb => .fdcb

end Sys2Proof.Machine
end

