-- ==== Sys2Proof/Machine/Step.lean ====
section
/-! DEFINITION. The step of the machine: one dispatch iteration (spec 40_dispatch.md R90, R91), with the `target_cycles` of
the run in progress as a field of the state (log 7). -/

namespace Sys2Proof.Machine

/-- `Iterate` (R91). -/
def step (s : State) : Host.Outcome State Fault Refusal :=
  match s.iteration with
  | .check => interruptCheck s
  | .spin => .next s.haltSpin
  | .fetch t =>
    match (s.beginFetch t).fetchEntry t with
    | some (i, s') => exec i s'
    | none => .fault .invalidDecodeState

/-- `s` made ready so that its very next step fetches and runs the instruction whose bits are `w` (log 16): its bytes are
stored at `PC`; leading prefix bytes count as decoded, so `PC` stands after them and the decode state is their table's
(no prefix: an instruction boundary); a pending interrupt check is taken back. -/
def State.withFetchWord (s : State) (nbits w : Nat) : State :=
  let bs := tableWordBytes nbits w
  let (t, k) := prefixWalk ((nbits + 7) / 8) .np bs
  { s.poke s.pc bs with
    pc := s.pc + BitVec.ofNat 16 k
    pfx := pfxOf t
    halted := false
    istat := if s.checkDue then .noCheck else s.istat }

end Sys2Proof.Machine
end

