-- ==== Sys2Proof/Machine/HostOps.lean ====
section
/-! DEFINITION. The host interface: `run` (spec 40_dispatch.md R92), reset (70_reset_and_hazards.md R420), the accessors
(10_state.md R17, R35), the platform's own changes between runs (R90), and an execution with its fault mark
(60_exceptions.md R381). -/

namespace Sys2Proof.Machine

/-! ## `run` (R92) -/

/-- An instruction boundary: `prefix ∈ {NoPrefix, Halt}`. -/
def State.atBoundary (s : State) : Bool := s.pfx == .noPrefix || s.pfx == .halt

/-- How a run ends. -/
inductive RunEnd where
  /-- `run` returned -/
  | returned (s : State)
  /-- a fatal condition stopped the iteration that began in `last` -/
  | faulted (f : Fault) (last : State)
  /-- an instruction without a meaning stopped it -/
  | refused (r : Refusal) (last : State)
  /-- it had not returned within the iterations allowed (R427: `run` may never return; log 9) -/
  | unfinished (s : State)
  deriving DecidableEq, Repr

/-- The loop of `run`: the exit test is made at instruction boundaries only, before an iteration. -/
def runLoop : Nat → State → RunEnd
  | 0, s => if s.atBoundary && decide (s.target ≤ s.cycles) then .returned s else .unfinished s
  | fuel + 1, s =>
    if s.atBoundary && decide (s.target ≤ s.cycles) then .returned s
    else
      match step s with
      | .next s' => runLoop fuel s'
      | .fault f => .faulted f s
      | .refused r => .refused r s

/-- `run(target_cycles)`, for at most `fuel` iterations. -/
def run (fuel target : Nat) (s : State) : RunEnd := runLoop fuel { s with target := target }

/-! ## Reset (R420) -/

/-- Reset: the fixed values of R30 and a draw of `InitRegs`; the platform is not touched (R32). -/
def State.hostReset (d : InitRegs) (s : State) : State :=
  { State.resetWith d with
    mem := s.mem, ioIn := s.ioIn, ioOut := s.ioOut, ioLog := s.ioLog, reqNmi := s.reqNmi,
    reqMi := s.reqMi, ioCount := s.ioCount, draws := s.draws, target := s.target }

/-! ## Accessors (R17, D28) -/

/-- The 16-bit slots (R10). -/
inductive Slot where
  | af | bc | de | hl | af' | bc' | de' | hl' | ix | iy | sp | pc
  deriving DecidableEq, Repr

namespace State

/-- Read a slot. -/
def getSlot (s : State) : Slot → Word
  | .af => s.af
  | .bc => s.bc
  | .de => s.de
  | .hl => s.hl
  | .af' => s.af'
  | .bc' => s.bc'
  | .de' => s.de'
  | .hl' => s.hl'
  | .ix => s.ix
  | .iy => s.iy
  | .sp => s.sp
  | .pc => s.pc

/-- Write a slot. -/
def setSlot (s : State) (x : Slot) (w : Word) : State :=
  match x with
  | .af => { s with af := w }
  | .bc => { s with bc := w }
  | .de => { s with de := w }
  | .hl => { s with hl := w }
  | .af' => { s with af' := w }
  | .bc' => { s with bc' := w }
  | .de' => { s with de' := w }
  | .hl' => { s with hl' := w }
  | .ix => { s with ix := w }
  | .iy => { s with iy := w }
  | .sp => { s with sp := w }
  | .pc => { s with pc := w }

/-- Read the high half of a slot (R11). -/
def getHigh (s : State) (x : Slot) : Byte := hi (s.getSlot x)

/-- Read the low half of a slot (R11). -/
def getLow (s : State) (x : Slot) : Byte := lo (s.getSlot x)

/-- Write the high half of a slot; the low half is unchanged (R11, R17). -/
def setHigh (s : State) (x : Slot) (v : Byte) : State := s.setSlot x (setHi (s.getSlot x) v)

/-- Write the low half of a slot; the high half is unchanged (R11, R17). -/
def setLow (s : State) (x : Slot) (v : Byte) : State := s.setSlot x (setLo (s.getSlot x) v)

/-- The `halted` setter writes `prefix` too (R17, D28). -/
def setHalted (s : State) (b : Bool) : State := { s with halted := b, pfx := if b then .halt else .noPrefix }

end State

/-- The platform value `E` as plain data (R6): what the platform may change by itself between runs (R90). -/
structure Platform where
  mem : Memory
  ioIn : List ReadReply
  ioOut : List WriteReply
  ioLog : List IoEvent
  reqNmi : Bool
  reqMi : Option Byte
  deriving DecidableEq, Repr

/-- Replace the platform value. -/
def State.setPlatform (s : State) (e : Platform) : State :=
  { s with mem := e.mem, ioIn := e.ioIn, ioOut := e.ioOut, ioLog := e.ioLog, reqNmi := e.reqNmi, reqMi := e.reqMi }

/-- A host action between runs (R90): reset, an accessor's write (R17), a change of the platform, a `run`. -/
inductive HostAction where
  | reset (d : InitRegs)
  | setSlot (x : Slot) (w : Word)
  | setHigh (x : Slot) (v : Byte)
  | setLow (x : Slot) (v : Byte)
  | setI (v : Byte)
  | setR (v : Byte)
  | setCycles (n : Nat)
  | setHalted (b : Bool)
  | setIff1 (b : Bool)
  | setIff2 (b : Bool)
  | setMode (m : IntMode)
  | setStatus (x : IntStatus)
  | platform (e : Platform)
  | run (fuel target : Nat)
  deriving DecidableEq, Repr

/-- An execution (R381): live in a state between runs, or stopped for good until reset. -/
inductive Execution where
  | live (s : State)
  /-- the fault mark `Fatal(reason)`, sticky (D15). `last` is kept so that reset finds the platform and the free-value
  counters untouched (R32); its core components are not specified (R381) and nothing reads them -/
  | faulted (f : Fault) (last : State)
  | refused (r : Refusal) (last : State)
  /-- a `run` that the allowed iterations did not finish -/
  | running (s : State)
  deriving DecidableEq, Repr

/-- The execution after a run. -/
def Execution.ofRun : RunEnd → Execution
  | .returned s => .live s
  | .faulted f last => .faulted f last
  | .refused r last => .refused r last
  | .unfinished s => .running s

/-- A host action on a live state. -/
def HostAction.onState (s : State) : HostAction → Execution
  | .reset d => .live (s.hostReset d)
  | .setSlot x w => .live (s.setSlot x w)
  | .setHigh x v => .live (s.setHigh x v)
  | .setLow x v => .live (s.setLow x v)
  | .setI v => .live { s with i := v }
  | .setR v => .live { s with r := v }
  | .setCycles n => .live { s with cycles := n }
  | .setHalted b => .live (s.setHalted b)
  | .setIff1 b => .live { s with iff1 := b }
  | .setIff2 b => .live { s with iff2 := b }
  | .setMode m => .live { s with im := m }
  | .setStatus x => .live { s with istat := x }
  | .platform e => .live (s.setPlatform e)
  | .run fuel target => Execution.ofRun (Machine.run fuel target s)

/-- A host action on an execution: a fault is cleared by reset only (R381, R420), so a later `run` only reports it; a run in
progress admits no action (R35).
DESIGN CHOICE (log 22), unsafe: the spec does not say what an accessor's write or a change of the platform does between a
fault and the reset (R8, R381 speak of a later run and of reset, R90 of actions between runs). Here it does nothing: it is
dropped, and a platform change made then is not there after the reset. -/
def Execution.act (x : Execution) (a : HostAction) : Execution :=
  match x, a with
  | .live s, a => a.onState s
  | .faulted _ last, .reset d => .live (last.hostReset d)
  | .refused _ last, .reset d => .live (last.hostReset d)
  | x, _ => x

end Sys2Proof.Machine
end

