-- ==== Sys2Proof/Safety.lean ====
section
/-! DEFINITION. The words in which claims about this machine are made: what an instruction's bytes and outcome are, which
parts of the state a claim says are unchanged, the bits of `F`, the invariant of a run, and which instructions may touch
which part of the state. -/

namespace Sys2Proof.Machine

/-! ## Bytes and outcomes -/

/-- The opcode byte with this number. -/
def op8 (n : Nat) : Byte := BitVec.ofNat 8 n

/-- The prefix byte that selects an index register (spec 30_encoding.md R72). -/
def xyByte : Idx → Byte
  | .ix => 0xDD#8
  | .iy => 0xFD#8

/-- The other index register. -/
def otherIdx : Idx → Idx
  | .ix => .iy
  | .iy => .ix

/-- Instruction `i`, whose encoding is `bytes`, completes from `s` in `t`. -/
def Runs (i : Instr) (bytes : List Byte) (s t : State) : Prop := encode i = bytes ∧ exec i s = .next t

/-! ## Memory, byte by byte -/

/-- Every address reads as before. -/
def SameMem (s t : State) : Prop := ∀ a, t.read8 a = s.read8 a

/-- The cell `a` holds `v`; every other address reads as before. -/
def Put8 (a : Word) (v : Byte) (s t : State) : Prop := t.read8 a = v ∧ ∀ x, x ≠ a → t.read8 x = s.read8 x

/-- The word `w` stands at `a`, low byte first (20_memory.md R41, R42); every other address reads as before. -/
def Put16 (a w : Word) (s t : State) : Prop :=
  t.read8 a = w.extractLsb' 0 8 ∧ t.read8 (a + 1#16) = w.extractLsb' 8 8
    ∧ ∀ x, x ≠ a → x ≠ a + 1#16 → t.read8 x = s.read8 x

/-- The word at `a`, low byte first, wrapping (20_memory.md R41, R42). -/
def wordAt (s : State) (a : Word) : Word := s.read8 (a + 1#16) ++ s.read8 a

/-! ## Registers -/

/-- The 8-bit register `r` holds `v`; every other 8-bit register of the main set holds what it held. -/
def RegSet (r : Reg8) (v : Byte) (s t : State) : Prop := t.getR r = v ∧ ∀ x, x ≠ r → t.getR x = s.getR x

/-- `n` cycles were added, and nothing but the eight bytes of the main set may have changed. -/
def MainOnly (n : Nat) (s t : State) : Prop :=
  t = { s with af := t.af, bc := t.bc, de := t.de, hl := t.hl, cycles := s.cycles + n } ∧ SameMem s t

/-- `n` cycles were added, and nothing but `AF` may have changed. -/
def AfOnly (n : Nat) (s t : State) : Prop := t = { s with af := t.af, cycles := s.cycles + n } ∧ SameMem s t

/-- `n` cycles were added, and nothing but memory may have changed. -/
def MemOnly (n : Nat) (s t : State) : Prop := t = { s with mem := t.mem, cycles := s.cycles + n }

/-- `n` cycles were added, and nothing but `AF` and memory may have changed. -/
def AfMemOnly (n : Nat) (s t : State) : Prop := t = { s with af := t.af, mem := t.mem, cycles := s.cycles + n }

/-- `n` cycles were added, and nothing but the main set and memory may have changed. -/
def MainMemOnly (n : Nat) (s t : State) : Prop :=
  t = { s with af := t.af, bc := t.bc, de := t.de, hl := t.hl, mem := t.mem, cycles := s.cycles + n }

/-- `n` cycles were added, and nothing but `AF` and the index registers may have changed. -/
def XyOnly (n : Nat) (s t : State) : Prop :=
  t = { s with af := t.af, ix := t.ix, iy := t.iy, cycles := s.cycles + n } ∧ SameMem s t

/-- The index register `ii` holds `w`; the other one holds what it held. -/
def IdxSet (ii : Idx) (w : Word) (s t : State) : Prop :=
  t.getIi ii = w ∧ t.getIi (otherIdx ii) = s.getIi (otherIdx ii)

/-- `n` cycles were added, and nothing but `BC`, `DE`, `HL` and `SP` may have changed. -/
def PairOnly (n : Nat) (s t : State) : Prop :=
  t = { s with bc := t.bc, de := t.de, hl := t.hl, sp := t.sp, cycles := s.cycles + n } ∧ SameMem s t

/-- The pair `p` holds `w`; the three other pairs of table `rp` hold what they held. -/
def PairSet (p : Pair) (w : Word) (s t : State) : Prop := t.getSs p = w ∧ ∀ x, x ≠ p → t.getSs x = s.getSs x

/-- The pair `p` holds `w`; the three other pairs of table `rp2` hold what they held. -/
def PairQSet (p : PairQ) (w : Word) (s t : State) : Prop := t.getQq p = w ∧ ∀ x, x ≠ p → t.getQq x = s.getQq x

/-- The index register `ii` holds `w`, `n` cycles were added, and nothing else changed. -/
def LoadsIdx (n : Nat) (ii : Idx) (w : Word) (s t : State) : Prop :=
  XyOnly n s t ∧ t.af = s.af ∧ IdxSet ii w s t

/-! ## Flags (10_state.md R12) -/

/-- The eight bits of `F`, bit 7 first: `S Z Y H X P/V N C`. -/
def FlagBits (f : Byte) (s z y h x p n c : Bool) : Prop :=
  f.getLsbD 7 = s ∧ f.getLsbD 6 = z ∧ f.getLsbD 5 = y ∧ f.getLsbD 4 = h ∧ f.getLsbD 3 = x ∧ f.getLsbD 2 = p
    ∧ f.getLsbD 1 = n ∧ f.getLsbD 0 = c

/-- The number of 1 bits is even (00_scope.md 5.1 `parity`). -/
def evenOnes (v : Byte) : Bool := decide (((List.range 8).filter v.getLsbD).length % 2 = 0)

/-- `F` shows `S Z Y X` of `v` (40_dispatch.md R108 `SZYX(v)`) and the four given bits. -/
def FlagsOf (v f : Byte) (h p n c : Bool) : Prop :=
  FlagBits f (v.getLsbD 7) (decide (v = 0#8)) (v.getLsbD 5) h (v.getLsbD 3) p n c

/-! ## 8-bit arithmetic (42_arith8.md R180 to R189) -/

/-- `A` becomes `A + v + c`; the flags are those of `add8` (R181, R182, R183). -/
def AddsToA (n : Nat) (v : Byte) (c : Bool) (s t : State) : Prop :=
  AfOnly n s t ∧ t.getA.toNat = (s.getA.toNat + v.toNat + c.toNat) % 256
    ∧ FlagsOf t.getA t.getF (decide (15 < s.getA.toNat % 16 + v.toNat % 16 + c.toNat))
        (decide (s.getA.toInt + v.toInt + c.toNat < -128 ∨ 127 < s.getA.toInt + v.toInt + c.toNat)) false
        (decide (255 < s.getA.toNat + v.toNat + c.toNat))

/-- `A` becomes `A - v - c`; the flags are those of `sub8` (R181, R184, R185). -/
def SubsFromA (n : Nat) (v : Byte) (c : Bool) (s t : State) : Prop :=
  AfOnly n s t ∧ t.getA = s.getA - v - BitVec.ofNat 8 c.toNat
    ∧ FlagsOf t.getA t.getF (decide (s.getA.toNat % 16 < v.toNat % 16 + c.toNat))
        (decide (s.getA.toInt - v.toInt - c.toNat < -128 ∨ 127 < s.getA.toInt - v.toInt - c.toNat)) true
        (decide (s.getA.toNat < v.toNat + c.toNat))

/-- `A` becomes `r`; the flags are those of a logic operation with half carry `h` (R186, R187, R188). -/
def LogicToA (n : Nat) (r : Byte) (h : Bool) (s t : State) : Prop :=
  AfOnly n s t ∧ t.getA = r ∧ FlagsOf r t.getF h (evenOnes r) false false

/-- `A` is kept; the flags are those of `A - v`, with `Y` and `X` from `v` (R189). -/
def ComparesWithA (n : Nat) (v : Byte) (s t : State) : Prop :=
  AfOnly n s t ∧ t.getA = s.getA
    ∧ FlagBits t.getF ((s.getA - v).getLsbD 7) (decide (s.getA = v)) (v.getLsbD 5)
        (decide (s.getA.toNat % 16 < v.toNat % 16)) (v.getLsbD 3)
        (decide (s.getA.toInt - v.toInt < -128 ∨ 127 < s.getA.toInt - v.toInt)) true
        (decide (s.getA.toNat < v.toNat))

/-- The six forms of one accumulator operation, whose index in table `alu` is `y` (R180): the bytes, the value of the
operand, the cycles (a prefix byte has added its 4 already, 40_dispatch.md R99), and the effect. -/
def AluForms (y : Nat) (reg : Reg8 → Instr) (mem : Instr) (imm : Byte → Instr) (idx : Idx → Byte → Instr)
    (iih iil : Idx → Instr) (effect : Nat → Byte → State → State → Prop) : Prop :=
  ∀ s : State,
    (∀ r, ∃ t, Runs (reg r) [op8 (0x80 + 8 * y + r.code)] s t ∧ effect 4 (s.getR r) s t)
    ∧ (∃ t, Runs mem [op8 (0x86 + 8 * y)] s t ∧ effect 7 (s.read8 s.hl) s t)
    ∧ (∀ n, ∃ t, Runs (imm n) [op8 (0xC6 + 8 * y), n] s t ∧ effect 7 n s t)
    ∧ (∀ ii d, ∃ t, Runs (idx ii d) [xyByte ii, op8 (0x86 + 8 * y), d] s t
        ∧ effect (19 - 4) (s.read8 (s.getIi ii + d.signExtend 16)) s t)
    ∧ (∀ ii, ∃ t, Runs (iih ii) [xyByte ii, op8 (0x84 + 8 * y)] s t
        ∧ effect (8 - 4) ((s.getIi ii).extractLsb' 8 8) s t)
    ∧ (∀ ii, ∃ t, Runs (iil ii) [xyByte ii, op8 (0x85 + 8 * y)] s t
        ∧ effect (8 - 4) ((s.getIi ii).extractLsb' 0 8) s t)

/-- The flags after `INC` of `v` (R191). -/
def IncFlags (v : Byte) (s t : State) : Prop :=
  FlagsOf (v + 1#8) t.getF (decide (v.toNat % 16 = 15)) (decide (v = 0x7F#8)) false (s.getF.getLsbD 0)

/-- The flags after `DEC` of `v` (R192). -/
def DecFlags (v : Byte) (s t : State) : Prop :=
  FlagsOf (v - 1#8) t.getF (decide (v.toNat % 16 = 0)) (decide (v = 0x80#8)) true (s.getF.getLsbD 0)

/-- The five forms of `INC m` or `DEC m` (R190): `k` is 4 or 5, `f` the new value, `flags` the flag rule. -/
def StepForms (k : Nat) (reg : Reg8 → Instr) (mem : Instr) (idx : Idx → Byte → Instr) (iih iil : Idx → Instr)
    (f : Byte → Byte) (flags : Byte → State → State → Prop) : Prop :=
  ∀ s : State,
    (∀ r, ∃ t, Runs (reg r) [op8 (8 * r.code + k)] s t ∧ MainOnly 4 s t ∧ RegSet r (f (s.getR r)) s t
        ∧ flags (s.getR r) s t)
    ∧ (∃ t, Runs mem [op8 (0x30 + k)] s t ∧ AfMemOnly 11 s t ∧ t.getA = s.getA
        ∧ Put8 s.hl (f (s.read8 s.hl)) s t ∧ flags (s.read8 s.hl) s t)
    ∧ (∀ ii d, ∃ t, Runs (idx ii d) [xyByte ii, op8 (0x30 + k), d] s t ∧ AfMemOnly (23 - 4) s t ∧ t.getA = s.getA
        ∧ Put8 (s.getIi ii + d.signExtend 16) (f (s.read8 (s.getIi ii + d.signExtend 16))) s t
        ∧ flags (s.read8 (s.getIi ii + d.signExtend 16)) s t)
    ∧ (∀ ii, ∃ t, Runs (iih ii) [xyByte ii, op8 (0x20 + k)] s t ∧ XyOnly (8 - 4) s t ∧ t.getA = s.getA
        ∧ IdxSet ii (f ((s.getIi ii).extractLsb' 8 8) ++ (s.getIi ii).extractLsb' 0 8) s t
        ∧ flags ((s.getIi ii).extractLsb' 8 8) s t)
    ∧ (∀ ii, ∃ t, Runs (iil ii) [xyByte ii, op8 (0x28 + k)] s t ∧ XyOnly (8 - 4) s t ∧ t.getA = s.getA
        ∧ IdxSet ii ((s.getIi ii).extractLsb' 8 8 ++ f ((s.getIi ii).extractLsb' 0 8)) s t
        ∧ flags ((s.getIi ii).extractLsb' 0 8) s t)

/-! ## Rotates, shifts and bits (44_rotate_shift.md, 45_bit.md) -/

/-- The flags after a rotate or shift with result `v`, the bit `c` shifted out (R245). -/
def RotFlags (v : Byte) (c : Bool) (t : State) : Prop := FlagsOf v t.getF false (evenOnes v) false c

/-- The four forms of one `CB` rotate or shift, whose index in table `rot` is `y` (R244, R74): `res` gives the result and
`out` the bit shifted out, both from the operand and the old carry. -/
def RotForms (y : Nat) (reg : Reg8 → Instr) (mem : Instr) (idx : Idx → Byte → Instr)
    (idxReg : Idx → Byte → Reg8 → Instr) (res : Byte → Bool → Byte) (out : Byte → Bool) : Prop :=
  ∀ s : State,
    let c := s.getF.getLsbD 0
    (∀ r, ∃ t, Runs (reg r) [0xCB#8, op8 (8 * y + r.code)] s t ∧ MainOnly (8 - 4) s t
        ∧ RegSet r (res (s.getR r) c) s t ∧ RotFlags (res (s.getR r) c) (out (s.getR r)) t)
    ∧ (∃ t, Runs mem [0xCB#8, op8 (8 * y + 6)] s t ∧ AfMemOnly (15 - 4) s t ∧ t.getA = s.getA
        ∧ Put8 s.hl (res (s.read8 s.hl) c) s t ∧ RotFlags (res (s.read8 s.hl) c) (out (s.read8 s.hl)) t)
    ∧ (∀ ii d, let ea := s.getIi ii + d.signExtend 16
        ∃ t, Runs (idx ii d) [xyByte ii, 0xCB#8, d, op8 (8 * y + 6)] s t ∧ AfMemOnly (23 - 4) s t ∧ t.getA = s.getA
        ∧ Put8 ea (res (s.read8 ea) c) s t ∧ RotFlags (res (s.read8 ea) c) (out (s.read8 ea)) t)
    ∧ (∀ ii d r, let ea := s.getIi ii + d.signExtend 16
        ∃ t, Runs (idxReg ii d r) [xyByte ii, 0xCB#8, d, op8 (8 * y + r.code)] s t ∧ MainMemOnly (23 - 4) s t
        ∧ RegSet r (res (s.read8 ea) c) s t ∧ Put8 ea (res (s.read8 ea) c) s t
        ∧ RotFlags (res (s.read8 ea) c) (out (s.read8 ea)) t)

/-- `A` becomes `v`, `C` becomes `c`; `S, Z, P` are kept (R240 to R243). -/
def RotatesA (v : Byte) (c : Bool) (s t : State) : Prop :=
  AfOnly 4 s t ∧ t.getA = v
    ∧ FlagBits t.getF (s.getF.getLsbD 7) (s.getF.getLsbD 6) (v.getLsbD 5) false (v.getLsbD 3) (s.getF.getLsbD 2)
        false c

/-- The four forms of `SET b` (`x = 3`) or `RES b` (`x = 2`): bit `b` becomes `on`, no other bit changes; no flag changes
(45_bit.md R273 to R280). -/
def SetResForms (x : Nat) (reg : BitVec 3 → Reg8 → Instr) (mem : BitVec 3 → Instr)
    (idx : Idx → Byte → BitVec 3 → Instr) (idxReg : Idx → Byte → BitVec 3 → Reg8 → Instr) (on : Bool) : Prop :=
  ∀ (s : State) (b : BitVec 3), ∃ f : Byte → Byte,
    (∀ v k, k < 8 → (f v).getLsbD k = if k = b.toNat then on else v.getLsbD k)
    ∧ (∀ r, ∃ t, Runs (reg b r) [0xCB#8, op8 (64 * x + 8 * b.toNat + r.code)] s t ∧ MainOnly (8 - 4) s t
        ∧ RegSet r (f (s.getR r)) s t ∧ t.getF = s.getF)
    ∧ (∃ t, Runs (mem b) [0xCB#8, op8 (64 * x + 8 * b.toNat + 6)] s t ∧ MemOnly (15 - 4) s t
        ∧ Put8 s.hl (f (s.read8 s.hl)) s t)
    ∧ (∀ ii d, let ea := s.getIi ii + d.signExtend 16
        ∃ t, Runs (idx ii d b) [xyByte ii, 0xCB#8, d, op8 (64 * x + 8 * b.toNat + 6)] s t ∧ MemOnly (23 - 4) s t
        ∧ Put8 ea (f (s.read8 ea)) s t)
    ∧ (∀ ii d r, let ea := s.getIi ii + d.signExtend 16
        ∃ t, Runs (idxReg ii d b r) [xyByte ii, 0xCB#8, d, op8 (64 * x + 8 * b.toNat + r.code)] s t
        ∧ MainMemOnly (23 - 4) s t ∧ RegSet r (f (s.read8 ea)) s t ∧ Put8 ea (f (s.read8 ea)) s t ∧ t.getF = s.getF)

/-- The flags after `BIT b` found the bit `v`, with `Y, X` as given (R270 to R272). -/
def BitFlags (b : BitVec 3) (v y x : Bool) (s t : State) : Prop :=
  FlagBits t.getF (decide (b = 7#3) && v) (!v) y true x (!v) false (s.getF.getLsbD 0)

/-! ## Block instructions (46_block.md) -/

/-- The end of one execution of a block instruction: a single-step form and a repeat form whose condition `again` fails
cost 16; a repeat form that continues costs 21 and puts `PC` back on the `ED` byte (R291). -/
def BlockEnd (again : Bool) (s t : State) : Prop :=
  t.pc = (if again then s.pc - 2#16 else s.pc) ∧ t.cycles = s.cycles + ((if again then 21 else 16) - 4)

/-- One element of a block move with step `k` (R292, R293). -/
def MoveElement (k : Word) (s t : State) : Prop :=
  t = { s with af := t.af, bc := s.bc - 1#16, de := s.de + k, hl := s.hl + k, mem := t.mem, pc := t.pc, cycles := t.cycles }
    ∧ t.getA = s.getA ∧ Put8 s.de (s.read8 s.hl) s t
    ∧ FlagBits t.getF (s.getF.getLsbD 7) (s.getF.getLsbD 6) ((s.getA + s.read8 s.hl).getLsbD 1) false
        ((s.getA + s.read8 s.hl).getLsbD 3) (decide (s.bc - 1#16 ≠ 0#16)) false (s.getF.getLsbD 0)

/-- One element of a block search with step `k` (R296, R297). -/
def SearchElement (k : Word) (s t : State) : Prop :=
  let v := s.read8 s.hl
  let h := decide (s.getA.toNat % 16 < v.toNat % 16)
  let n := s.getA - v - BitVec.ofNat 8 h.toNat
  t = { s with af := t.af, bc := s.bc - 1#16, hl := s.hl + k, pc := t.pc, cycles := t.cycles } ∧ SameMem s t
    ∧ t.getA = s.getA
    ∧ FlagBits t.getF ((s.getA - v).getLsbD 7) (decide (s.getA = v)) (n.getLsbD 1) h (n.getLsbD 3)
        (decide (s.bc - 1#16 ≠ 0#16)) true (s.getF.getLsbD 0)

/-- The flags of a block port instruction, from the byte `v`, the sum `k` and the new `B` (R300, R304). -/
def BlockIoFlags (v : Byte) (k : Nat) (b : Byte) (t : State) : Prop :=
  FlagsOf b t.getF (decide (255 < k)) (evenOnes (BitVec.ofNat 8 (k % 8) ^^^ b)) (v.getLsbD 7) (decide (255 < k))

/-! ## Port accesses (00_scope.md R6, 20_memory.md R47, 48_io_cpu_control.md R350) -/

/-- What a list of stores leaves at `a`: the byte of the last one there, if any. -/
def lastStore : List (Word × Byte) → Word → Option Byte
  | [], _ => none
  | (x, v) :: cs, a => (lastStore cs a).or (if x = a then some v else none)

/-- The byte at `a` once the platform has changed memory as `e` says (D17); a cell it does not name keeps its byte. -/
def byteAfter (e : IoEffect) (s : State) (a : Word) : Byte := (lastStore e.stores a).getD (s.read8 a)

/-- `r` is the first element of `l` with `q`, and `rest` is `l` without it; or no element has `q` and `rest` is `l`. -/
def TakenFirst {α : Type} (q : α → Bool) (l rest : List α) (r : Option α) : Prop :=
  match r with
  | none => (∀ x ∈ l, q x = false) ∧ rest = l
  | some x => q x = true ∧ ∃ before after, l = before ++ x :: after ∧ rest = before ++ after ∧ ∀ y ∈ before, q y = false

/-- What one port access with the platform's reaction `e` leaves, memory apart: the access is recorded, the lines move as `e`
says, the check's status is `Check`. A read takes the first reply supplied for its port, a write the first one for its port and
byte, and answer and reaction are that reply's; where none is supplied they are a free value (log 4). The other supplied replies
stay as they are (log 24). -/
def PortAccessed (ev : IoEvent) (e : IoEffect) (s t : State) : Prop :=
  t.ioLog = s.ioLog ++ [ev] ∧ t.ioCount = s.ioCount + 1 ∧ t.istat = .check ∧ t.reqNmi = (s.reqNmi || e.latchNmi)
    ∧ t.reqMi = (match e.mi with | .keep => s.reqMi | .drop => none | .raise v => some v)
    ∧ match ev with
      | .read p v => t.ioOut = s.ioOut ∧ ∃ r, TakenFirst (readServes p) s.ioIn t.ioIn r
          ∧ (v, e) = match r with | some x => (x.data, x.effect) | none => Config.freeRead s.ioCount s.ioLog p
      | .write p v => t.ioIn = s.ioIn ∧ ∃ r, TakenFirst (writeServes p v) s.ioOut t.ioOut r
          ∧ e = match r with | some x => x.effect | none => Config.freeWrite s.ioCount s.ioLog p v

/-- Nothing but these parts may have changed: `AF`, `BC`, `DE`, `HL`, `PC`, the counter, the status of the interrupt check, the
platform. -/
def PortOnly (s t : State) : Prop :=
  t = { s with af := t.af, bc := t.bc, de := t.de, hl := t.hl, pc := t.pc, cycles := t.cycles, istat := t.istat,
               mem := t.mem, ioIn := t.ioIn, ioOut := t.ioOut, ioLog := t.ioLog, reqNmi := t.reqNmi, reqMi := t.reqMi,
               ioCount := t.ioCount }

/-- A port access by an instruction that adds `n` cycles, moves no `PC` and stores nothing: memory changes by the platform's
reaction only. -/
def PortStep (n : Nat) (ev : IoEvent) (s t : State) : Prop :=
  PortOnly s t ∧ t.pc = s.pc ∧ t.cycles = s.cycles + n
    ∧ ∃ e, PortAccessed ev e s t ∧ ∀ a, t.read8 a = byteAfter e s a

/-- One element of a block input whose address step is `k` and whose step of `C` is `m` (R300, R301): the byte `v` that port
`BC` answers is stored after the platform's reaction. -/
def InputElement (k : Word) (m : Byte) (s t : State) : Prop :=
  ∃ v e, PortOnly s t ∧ PortAccessed (.read s.bc v) e s t ∧ (∀ a, t.read8 a = if a = s.hl then v else byteAfter e s a)
    ∧ t.getA = s.getA ∧ t.de = s.de ∧ t.hl = s.hl + k ∧ t.getC = s.getC ∧ t.getB = s.getB - 1#8
    ∧ BlockIoFlags v (v.toNat + (s.getC + m).toNat) (s.getB - 1#8) t

/-- One element of a block output whose address step is `k` (R304, R305). -/
def OutputElement (k : Word) (s t : State) : Prop :=
  let v := s.read8 s.hl
  ∃ e, PortOnly s t ∧ PortAccessed (.write t.bc v) e s t ∧ (∀ a, t.read8 a = byteAfter e s a)
    ∧ t.getA = s.getA ∧ t.de = s.de ∧ t.hl = s.hl + k ∧ t.getC = s.getC ∧ t.getB = s.getB - 1#8
    ∧ BlockIoFlags v (v.toNat + (s.hl + k).toNat % 256) (s.getB - 1#8) t

/-! ## Control transfer (47_control_transfer.md) -/

/-- The return address was pushed, control is at `target` (R330, R340). -/
def Called (n : Nat) (target : Word) (s t : State) : Prop :=
  t = { s with pc := target, sp := s.sp - 2#16, mem := t.mem, cycles := s.cycles + n } ∧ Put16 (s.sp - 2#16) s.pc s t

/-- Control went to the word popped from the stack (R332). -/
def Returned (n : Nat) (s t : State) : Prop :=
  t = { s with pc := wordAt s s.sp, sp := s.sp + 2#16, cycles := s.cycles + n } ∧ SameMem s t

/-! ## Interrupts (60_exceptions.md) -/

/-- An interrupt check is due: the status is `Check`, or `Ei(n)` with `cycles > n` (40_dispatch.md R98). -/
def CheckDue (s : State) : Prop := s.istat = .check ∨ ∃ n, s.istat = .ei n ∧ n < s.cycles

/-- The core stands at an instruction boundary (R92). -/
def AtBoundary (s : State) : Prop := s.pfx = .noPrefix ∨ s.pfx = .halt

/-- The check accepts an interrupt (R385, R388). -/
def Accepts (s : State) : Prop := s.reqNmi = true ∨ (s.reqMi.isSome = true ∧ s.iff1 = true)

/-- The refresh counter counted once: bit 7 is kept, the low 7 bits go up by one modulo 128 (10_state.md R21). -/
def countedR (r : Byte) : Byte := (r &&& 0x80#8) ||| ((r + 1#8) &&& 0x7F#8)

/-- What every acceptance leaves (R404): `PC` on the stack, control at `entry`, `R` counted once, the core awake and at an
instruction boundary, the cost added, `iff1` cleared; `iff2` and the latch of the non-maskable request as given. -/
def Accepted (entry : Word) (cost : Nat) (iff2 nmi : Bool) (s t : State) : Prop :=
  t = { s with pc := entry, sp := s.sp - 2#16, mem := t.mem, r := countedR s.r, iff1 := false, iff2 := iff2, pfx := .noPrefix,
               halted := false, cycles := s.cycles + cost, istat := .noCheck, reqNmi := nmi }
    ∧ Put16 (s.sp - 2#16) s.pc s t

/-! ## The invariant of a run (10_state.md R28) -/

/-- Memory is in canonical form, `halted` agrees with `prefix` (Inv5), and a recorded `EI` time is not in the future
(Inv7). -/
def Inv (s : State) : Prop :=
  s.mem.wf = true ∧ (s.halted = true ↔ s.pfx = .halt) ∧ ∀ n, s.istat = .ei n → n ≤ s.cycles

/-! ## Which instructions touch what -/

/-- The instruction that a kept entry of tables `DD`/`FD` is (30_encoding.md R72 item 5); any other is itself. -/
def effective : Instr → Instr
  | .npUnchanged _ i => i
  | i => i

/-- The prefix rows, which are no instructions of their own (30_encoding.md R78). -/
def isPrefixRow : Instr → Bool
  | .prefixCb | .prefixDd | .prefixEd | .prefixFd | .prefixCbXy _ | .prefixDdXy _ | .prefixFdXy _ | .prefixEdXy _ => true
  | _ => false

/-- The IO-class instructions (48_io_cpu_control.md R350 (b)). -/
def ioClass (i : Instr) : Bool :=
  match effective i with
  | .inAN _ | .inRegC _ | .inFC | .outNA _ | .outCReg _ | .outCZero | .ini | .ind | .inir | .indr | .outi | .outd | .otir
  | .otdr => true
  | _ => false

/-- The addresses that an instruction stores to, from the state it runs in. -/
def storeCells (i : Instr) (s : State) : List Word :=
  match effective i with
  | .ldMemReg _ | .ldMemN _ | .incMem | .decMem | .rlcMem | .rrcMem | .rlMem | .rrMem | .slaMem | .sraMem | .sllMem
  | .srlMem | .resMem _ | .setMem _ | .rld | .rrd | .ini | .ind | .inir | .indr => [s.hl]
  | .ldMemBcA => [s.bc]
  | .ldMemDeA | .ldi | .ldd | .ldir | .lddr => [s.de]
  | .ldMemNnA nn => [nn]
  | .ldMemNnHl nn | .ldMemNnSs nn _ | .ldMemNnIi nn _ => [nn, nn + 1#16]
  | .pushQq _ | .pushIi _ | .call _ | .rst _ => [s.sp - 1#16, s.sp - 2#16]
  | .callCc cc _ => if s.cond cc then [s.sp - 1#16, s.sp - 2#16] else []
  | .exSpHl | .exSpIi _ => [s.sp, s.sp + 1#16]
  | .ldIdxReg ii d _ | .ldIdxN ii d _ | .incIdx ii d | .decIdx ii d | .rlcIdx ii d | .rlcIdxReg ii d _ | .rrcIdx ii d
  | .rrcIdxReg ii d _ | .rlIdx ii d | .rlIdxReg ii d _ | .rrIdx ii d | .rrIdxReg ii d _ | .slaIdx ii d
  | .slaIdxReg ii d _ | .sraIdx ii d | .sraIdxReg ii d _ | .sllIdx ii d | .sllIdxReg ii d _ | .srlIdx ii d
  | .srlIdxReg ii d _ | .resIdx ii d _ | .resIdxReg ii d _ _ | .setIdx ii d _ | .setIdxReg ii d _ _ => [s.ea ii d]
  | _ => []

/-- The addresses that the platform stores to in its reaction to the port access of an IO-class instruction. -/
def platformCells (i : Instr) (s : State) : List Word :=
  let e : IoEffect :=
    match effective i with
    | .inAN n => (s.readReply (s.getA ++ n)).2
    | .inRegC _ | .inFC | .ini | .ind | .inir | .indr => (s.readReply s.bc).2
    | .outNA n => s.writeReply (s.getA ++ n) s.getA
    | .outCReg r => s.writeReply s.bc (s.getR r)
    | .outCZero => s.writeReply s.bc 0x00#8
    | .outi | .outd | .otir | .otdr => s.writeReply ((s.getB - 1#8) ++ s.getC) (s.read8 s.hl)
    | _ => { latchNmi := false, mi := .keep, stores := [] }
  e.stores.map (·.1)

end Sys2Proof.Machine
end

