-- ==== Sys2Proof/Certificates/Slice0/Obligations.lean ====
section
/-! DEFINITION. The statements about this machine that are to be proved, in the spec's order: encoding, the step, interrupts,
the invariant, who writes what, the host's interface, memory, and then family by family what every instruction does. The
form `∃ t, Runs i bytes s t ∧ …` says that `i` has the encoding `bytes` and completes from every state `s`. -/

section

open Sys2Proof Sys2Proof.Machine

/-! ## Encoding -/

/-- Words written out from the spec's encodings decode to the instructions they stand for, at least one of every table. That
`DD FD 23` and `DD ED 44` are read so is the spec's decision D4, the no-operation `ED 77` its D7 (log 12). -/
def Obligations.SpecWordsDecode : Prop :=
  decode [0x3E#8, 0x05#8] = .ok (.ldRegN .a 0x05#8, [])
    ∧ decode [0xC6#8, 0x03#8] = .ok (.addN 0x03#8, [])
    ∧ decode [0x2A#8, 0x00#8, 0xC0#8] = .ok (.ldHlMemNn 0xC000#16, [])
    ∧ decode [0xED#8, 0x6B#8, 0x00#8, 0xC0#8] = .ok (.ldSsMemNn .hl 0xC000#16, [])
    ∧ decode [0xDD#8, 0x36#8, 0x01#8, 0x7F#8] = .ok (.ldIdxN .ix 0x01#8 0x7F#8, [])
    ∧ decode [0xDD#8, 0xCB#8, 0x05#8, 0x06#8] = .ok (.rlcIdx .ix 0x05#8, [])
    ∧ decode [0xFD#8, 0xCB#8, 0xFE#8, 0xBE#8] = .ok (.resIdx .iy 0xFE#8 7#3, [])
    ∧ decode [0xDD#8, 0xEB#8] = .ok (.npUnchanged .ix .exDeHl, [])
    ∧ decode [0xDD#8, 0xFD#8, 0x23#8] = .ok (.incIi .iy, [])
    ∧ decode [0xDD#8, 0xED#8, 0x44#8] = .ok (.neg 0#3, [])
    ∧ decode [0xED#8, 0x77#8] = .ok (.nopEd 0x77#8, [])
    ∧ decode [0x20#8, 0xFC#8] = .ok (.jrCc .nz 0xFC#8, [])
    ∧ decode [0xCB#8, 0x5E#8] = .ok (.bitMem 3#3, [])

/-- Decoding the bytes of a well-formed instruction gives it back, whatever follows: in its own table, and, for the rows that
are instructions of their own, from the first prefix byte on. No operand bit is lost. -/
def Obligations.DecodeOfEncode : Prop :=
  ∀ (i : Instr) (rest : List Byte), WellFormed i →
    decodeIn i.table (encodeEntry i ++ rest) = .ok (i, rest)
      ∧ (isPrefixRow i = false → decode (encode i ++ rest) = .ok (i, rest))

/-- Every byte of every table has a row: three bytes always decode, to a well-formed instruction of that table whose encoding
they are. -/
def Obligations.DecodeIsTotal : Prop :=
  ∀ (t : Table) (b0 b1 b2 : Byte), ∃ i rest, decodeIn t [b0, b1, b2] = .ok (i, rest) ∧ WellFormed i
    ∧ i.table = t ∧ encodeEntry i ++ rest = [b0, b1, b2]

/-! ## The dispatch iteration -/

/-- An iteration that fetches runs the decoded instruction: `R` counts in tables `NP`, `DD`, `FD` only (the spec's decision D3;
log 11), the decode state is reset, and `PC` stands after the entry's last byte (of tables `DDCB`, `FDCB`: D5; log 11). -/
def Obligations.StepRunsDecodedInstruction : Prop :=
  ∀ (s : State) (i : Instr) (rest : List Byte),
    let bytes := [s.read8 s.pc, s.read8 (s.pc + 1#16), s.read8 (s.pc + 2#16)]
    let next := s.pc + BitVec.ofNat 16 (3 - rest.length)
    (s.pfx = .noPrefix → ¬ CheckDue s → decodeIn .np bytes = .ok (i, rest) →
        step s = exec i { s with r := countedR s.r, pc := next })
    ∧ (s.pfx = .cb → decodeIn .cb bytes = .ok (i, rest) → step s = exec i { s with pfx := .noPrefix, pc := next })
    ∧ (s.pfx = .ed → decodeIn .ed bytes = .ok (i, rest) → step s = exec i { s with pfx := .noPrefix, pc := next })
    ∧ (s.pfx = .dd → decodeIn .dd bytes = .ok (i, rest) →
        step s = exec i { s with r := countedR s.r, pfx := .noPrefix, pc := next })
    ∧ (s.pfx = .fd → decodeIn .fd bytes = .ok (i, rest) →
        step s = exec i { s with r := countedR s.r, pfx := .noPrefix, pc := next })
    ∧ (s.pfx = .ddcb → decodeIn .ddcb bytes = .ok (i, rest) → step s = exec i { s with pfx := .noPrefix, pc := next })
    ∧ (s.pfx = .fdcb → decodeIn .fdcb bytes = .ok (i, rest) → step s = exec i { s with pfx := .noPrefix, pc := next })

/-- A state in the middle of an instruction is followed by the states the invariant Inv1 names. -/
def Obligations.DecodeStateIsResolved : Prop :=
  ∀ s t : State, step s = .next t →
    ((s.pfx = .cb ∨ s.pfx = .ed ∨ s.pfx = .ddcb ∨ s.pfx = .fdcb) → AtBoundary t)
    ∧ ((s.pfx = .dd ∨ s.pfx = .fd) → t.pfx ≠ .cb)
    ∧ (s.pfx = .dd → t.pfx ≠ .fdcb) ∧ (s.pfx = .fd → t.pfx ≠ .ddcb)

/-! ## Interrupts -/

/-- At an instruction boundary with a check due, a pending non-maskable request is accepted whatever the latches and the
mode: entry `0x0066`, 11 cycles, `iff2` kept, the latch taken. That `TakeNmi` changes nothing else of the platform is the
model's choice (log 23), and so is plain RAM, by which the pushed bytes read back and nothing else changes (log 3). -/
def Obligations.NmiIsAccepted : Prop :=
  ∀ s : State, AtBoundary s → CheckDue s → s.reqNmi = true →
    ∃ t, step s = .next t ∧ Accepted 0x0066#16 11 s.iff2 false s t

/-- At an instruction boundary with a check due and no non-maskable request: an asserted maskable request is accepted if
`iff1` is set (mode 1 enters `0x0038` for 13 cycles, mode 2 enters `I ++ v` for 19, mode 0 is fatal); else the check only
sets the status to `NoCheck`. That the pushed bytes read back and nothing else of the platform changes is the model's choice of
plain RAM (log 3). -/
def Obligations.MaskableInterrupts : Prop :=
  ∀ s : State, AtBoundary s → CheckDue s → s.reqNmi = false →
    (∀ v, s.reqMi = some v → s.iff1 = true →
      (s.im = .im1 → ∃ t, step s = .next t ∧ Accepted 0x0038#16 13 false false s t)
      ∧ (s.im = .im2 → ∃ t, step s = .next t ∧ Accepted (s.i ++ v) 19 false false s t)
      ∧ (s.im = .im0 → step s = .fault .im0Service))
    ∧ (s.reqMi = none ∨ s.iff1 = false → step s = .next { s with istat := .noCheck })

/-- The machine never refuses, and it stops only where a maskable interrupt is accepted in mode 0. -/
def Obligations.StopsOnlyInMode0 : Prop :=
  ∀ s : State, (∀ r, step s ≠ .refused r)
    ∧ ∀ f, step s = .fault f ↔ f = .im0Service ∧ AtBoundary s ∧ CheckDue s ∧ s.reqNmi = false ∧ s.reqMi.isSome = true
        ∧ s.iff1 = true ∧ s.im = .im0

/-- After `EI` no check is made before the next instruction: the next iteration fetches; the rows of prefix bytes keep the
recorded time; and whatever instruction but another `EI` completes next, prefixed or not, a check is due after it. That the time
is `cycles` after `EI`'s own is the spec's decision D9 (log 11). -/
def Obligations.EiWindow : Prop :=
  (∀ s : State, s.pfx = .noPrefix → ¬ CheckDue s → s.read8 s.pc = 0xFB#8 →
    ∃ t, step s = .next t ∧ t.pfx = .noPrefix ∧ t.iff1 = true ∧ t.iff2 = true ∧ t.istat = .ei t.cycles ∧ ¬ CheckDue t
      ∧ ∀ u, step t = .next u → AtBoundary u → t.read8 t.pc ≠ 0xFB#8 → CheckDue u)
    ∧ (∀ (i : Instr) (s t : State), isPrefixRow i = true → exec i s = .next t → t.istat = s.istat ∧ s.cycles ≤ t.cycles)
    ∧ ∀ (i : Instr) (s t : State) (n : Nat), isPrefixRow i = false → effective i ≠ .ei → s.istat = .ei n → n ≤ s.cycles →
        exec i s = .next t → CheckDue t

/-! ## What every step keeps -/

/-- Every step keeps the invariant of a run. -/
def Obligations.InvariantIsKept : Prop := ∀ s t : State, Inv s → step s = .next t → Inv t

/-- The invariant holds after reset, whatever values the eleven unspecified registers take. -/
def Obligations.InvariantAtReset : Prop := ∀ d : InitRegs, Inv (State.resetWith d)

/-- `R` over one step: it counts in iterations that fetch in tables `NP`, `DD`, `FD` and in accepted checks, and nowhere
else; only `LD R,A` writes it otherwise, so bit 7 changes by no other instruction. That it stands still in tables `CB`, `ED`,
`DDCB`, `FDCB` is the spec's decision D3, in the halted spin D21 (log 11). -/
def Obligations.RefreshCounter : Prop :=
  ∀ s t : State, step s = .next t →
    (s.pfx = .ed ∧ s.read8 s.pc = 0x4F#8 ∧ t.r = s.getA)
    ∨ (t.r.getLsbD 7 = s.r.getLsbD 7
        ∧ (s.pfx = .cb ∨ s.pfx = .ed ∨ s.pfx = .ddcb ∨ s.pfx = .fdcb ∨ (AtBoundary s ∧ CheckDue s ∧ ¬ Accepts s)
              ∨ (s.pfx = .halt ∧ ¬ CheckDue s) → t.r = s.r)
        ∧ (s.pfx = .dd ∨ s.pfx = .fd ∨ (AtBoundary s ∧ CheckDue s ∧ Accepts s) ∨ (s.pfx = .noPrefix ∧ ¬ CheckDue s)
              → t.r.toNat % 128 = (s.r.toNat + 1) % 128))

/-- `cycles` never decreases; every instruction adds at least 4, and at most 19 after its prefix bytes. -/
def Obligations.CyclesOfAStep : Prop :=
  (∀ s t : State, step s = .next t → s.cycles ≤ t.cycles)
    ∧ ∀ (i : Instr) (s t : State), isPrefixRow i = false → exec i s = .next t →
        s.cycles + 4 ≤ t.cycles ∧ t.cycles ≤ s.cycles + 19

/-- A halted core with no check due spins: `cycles` goes to the target of the run and nothing else changes. As long as it stays
halted nothing but `cycles` and the status of the check changes. -/
def Obligations.HaltedCore : Prop :=
  ∀ s : State, s.pfx = .halt →
    (¬ CheckDue s → step s = .next { s with cycles := max s.cycles s.target })
    ∧ ∀ t, step s = .next t → t.pfx = .halt → t = { s with cycles := t.cycles, istat := t.istat }

/-! ## Which instructions write what -/

/-- Every well-formed instruction completes from every state: none faults, none is refused, none is privileged. -/
def Obligations.EveryInstructionCompletes : Prop :=
  ∀ (i : Instr) (s : State), WellFormed i → ∃ t, exec i s = .next t

/-- The shadow set is written by the exchanges only, `I` by `LD I,A`, `R` by `LD R,A`, the mode by `IM`, the latches by `EI`,
`DI` and (`iff1`) the returns from interrupts, `halted` by `HALT`, the decode state by `HALT` and the prefix bytes, `IX` by table
`DD` and `IY` by table `FD`. -/
def Obligations.ControlStateWriters : Prop :=
  ∀ (i : Instr) (s t : State), exec i s = .next t →
    (t.af' ≠ s.af' → effective i = .exAfAf)
    ∧ (t.bc' ≠ s.bc' ∨ t.de' ≠ s.de' ∨ t.hl' ≠ s.hl' → effective i = .exx)
    ∧ (t.i ≠ s.i → effective i = .ldIA) ∧ (t.r ≠ s.r → effective i = .ldRA)
    ∧ (t.im ≠ s.im → (∃ y, effective i = .im0 y) ∨ (∃ y, effective i = .im1 y) ∨ ∃ y, effective i = .im2 y)
    ∧ (t.iff1 ≠ s.iff1 → effective i = .ei ∨ effective i = .di ∨ (∃ y, effective i = .retn y) ∨ effective i = .reti)
    ∧ (t.iff2 ≠ s.iff2 → effective i = .ei ∨ effective i = .di)
    ∧ (t.halted ≠ s.halted → effective i = .halt)
    ∧ (t.pfx ≠ s.pfx → effective i = .halt ∨ isPrefixRow (effective i) = true)
    ∧ (t.ix ≠ s.ix → i.table = .dd) ∧ (t.iy ≠ s.iy → i.table = .fd)

/-- The IO-class instructions access a port exactly once, the platform reacting as it is supplied to or as it is free to, and set
the status to `Check`; `EI` records the time; no other instruction changes the status, and none but the IO-class ones the
platform's ports and request lines. The model's choices: no store moves those (logs 3, 5), no access changes the reactions
supplied for later ones (log 24). -/
def Obligations.IoClassEffects : Prop :=
  ∀ (i : Instr) (s t : State), exec i s = .next t →
    (ioClass i = true → ∃ ev e, PortAccessed ev e s t)
    ∧ (ioClass i = false → t.ioCount = s.ioCount ∧ t.ioIn = s.ioIn ∧ t.ioOut = s.ioOut ∧ t.ioLog = s.ioLog
        ∧ t.reqNmi = s.reqNmi ∧ t.reqMi = s.reqMi)
    ∧ (effective i = .ei → t.istat = .ei t.cycles)
    ∧ (ioClass i = false → effective i ≠ .ei → t.istat = s.istat)

/-- Every instruction leaves every byte of memory unchanged but those it stores to, and, if it accesses a port, those the
platform changes in its reaction (log 4). That a store changes no other cell is the model's choice of plain RAM (log 3). -/
def Obligations.StoresOnlyItsCells : Prop :=
  ∀ (i : Instr) (s t : State), exec i s = .next t →
    ∀ a, a ∉ storeCells i s → a ∉ platformCells i s → t.read8 a = s.read8 a

/-! ## The host's interface -/

/-- Reset gives the fixed values of R30 and the draw of `InitRegs`, and leaves the platform alone (its form: logs 2, 4). -/
def Obligations.ResetValues : Prop :=
  ∀ (d : InitRegs) (s : State),
    let t := s.hostReset d
    (t.pc = 0x0000#16 ∧ t.i = 0x00#8 ∧ t.r = 0x00#8 ∧ t.iff1 = false ∧ t.iff2 = false ∧ t.im = .im1
      ∧ t.halted = false ∧ t.pfx = .noPrefix ∧ t.istat = .noCheck ∧ t.cycles = 0)
    ∧ (t.af = d.af ∧ t.bc = d.bc ∧ t.de = d.de ∧ t.hl = d.hl ∧ t.af' = d.af' ∧ t.bc' = d.bc' ∧ t.de' = d.de'
      ∧ t.hl' = d.hl' ∧ t.ix = d.ix ∧ t.iy = d.iy ∧ t.sp = d.sp)
    ∧ (t.mem = s.mem ∧ t.reqNmi = s.reqNmi ∧ t.reqMi = s.reqMi ∧ t.ioIn = s.ioIn ∧ t.ioOut = s.ioOut
      ∧ t.ioLog = s.ioLog)

/-- The accessors: a slot reads what was written to it and no other slot changes; writing one half leaves the other half; the
setter of `halted` writes `prefix` too. -/
def Obligations.AccessorRoundTrip : Prop :=
  ∀ (s : State) (x : Slot) (w : Word) (v : Byte) (b : Bool),
    ((s.setSlot x w).getSlot x = w ∧ ∀ y, y ≠ x → (s.setSlot x w).getSlot y = s.getSlot y)
    ∧ ((s.setHigh x v).getHigh x = v ∧ (s.setHigh x v).getLow x = s.getLow x)
    ∧ ((s.setLow x v).getLow x = v ∧ (s.setLow x v).getHigh x = s.getHigh x)
    ∧ s.getSlot x = s.getHigh x ++ s.getLow x
    ∧ ((s.setHalted b).halted = b ∧ ((s.setHalted b).pfx = .halt ↔ b = true) ∧ AtBoundary (s.setHalted b))

/-- `run` returns at an instruction boundary with `cycles` at the target or past it; called at a boundary where that already
holds it does nothing; a halted core with no check due ends exactly at the target. The exit test at boundaries only is the
spec's decision D2, the spin to the target D21 (log 11). -/
def Obligations.RunReturns : Prop :=
  ∀ (fuel target : Nat) (s : State),
    (∀ t, run fuel target s = .returned t → AtBoundary t ∧ target ≤ t.cycles)
    ∧ (AtBoundary s → target ≤ s.cycles → run fuel target s = .returned { s with target := target })
    ∧ (s.pfx = .halt → ¬ CheckDue s →
        run (fuel + 1) target s = .returned { s with cycles := max s.cycles target, target := target })

/-- A fault is sticky: no action of the host but reset changes a faulted execution, and reset makes it live again. That a `run`
only reports the fault is the spec's decision D15 (log 13); that an accessor's write and a change of the platform do nothing
either is the model's choice (log 22). -/
def Obligations.FaultIsSticky : Prop :=
  ∀ (f : Fault) (s : State) (a : HostAction),
    (∃ d, a = .reset d ∧ (Execution.faulted f s).act a = .live (s.hostReset d))
      ∨ ((∀ d, a ≠ .reset d) ∧ (Execution.faulted f s).act a = .faulted f s)

/-! ## Memory -/

/-- A read gives the latest write to its address and no write changes another address; words are little-endian and wrap;
a pushed word stands below `SP`, low byte at the new `SP`, and a pop gives it back; every write keeps the canonical form. The
wrap of words and stack is the spec's decision D25 (log 11), plain RAM the model's choice (log 3). -/
def Obligations.MemoryLaws : Prop :=
  ∀ (s : State) (a : Word) (v : Byte) (w : Word),
    Put8 a v s (s.write8 a v) ∧ Put16 a w s (s.write16 a w) ∧ s.read16 a = wordAt s a
      ∧ (s.write16 a w).read16 a = w
      ∧ (s.mem.wf = true → (s.write8 a v).mem.wf = true ∧ (s.write16 a w).mem.wf = true ∧ (s.push16 w).mem.wf = true)
      ∧ (s.push16 w).sp = s.sp - 2#16 ∧ Put16 (s.sp - 2#16) w s (s.push16 w)
      ∧ (s.push16 w).top16 = w ∧ (s.push16 w).pop16.sp = s.sp

/-! ## Loads, stack, exchanges (41_load_exchange.md) -/

/-- The loads of an 8-bit register: the register holds the value, no other register and no flag changes. -/
def Obligations.LoadRegisterForms : Prop :=
  ∀ s : State,
    (∀ r r', ∃ t, Runs (.ldRegReg r r') [op8 (0x40 + 8 * r.code + r'.code)] s t ∧ MainOnly 4 s t ∧ t.getF = s.getF
        ∧ RegSet r (s.getR r') s t)
    ∧ (∀ r n, ∃ t, Runs (.ldRegN r n) [op8 (0x06 + 8 * r.code), n] s t ∧ MainOnly 7 s t ∧ t.getF = s.getF
        ∧ RegSet r n s t)
    ∧ (∀ r, ∃ t, Runs (.ldRegMem r) [op8 (0x46 + 8 * r.code)] s t ∧ MainOnly 7 s t ∧ t.getF = s.getF
        ∧ RegSet r (s.read8 s.hl) s t)
    ∧ (∃ t, Runs .ldAMemBc [0x0A#8] s t ∧ MainOnly 7 s t ∧ t.getF = s.getF ∧ RegSet .a (s.read8 s.bc) s t)
    ∧ (∃ t, Runs .ldAMemDe [0x1A#8] s t ∧ MainOnly 7 s t ∧ t.getF = s.getF ∧ RegSet .a (s.read8 s.de) s t)
    ∧ (∀ l h, ∃ t, Runs (.ldAMemNn (h ++ l)) [0x3A#8, l, h] s t ∧ MainOnly 13 s t ∧ t.getF = s.getF
        ∧ RegSet .a (s.read8 (h ++ l)) s t)
    ∧ (∀ r ii d, ∃ t, Runs (.ldRegIdx r ii d) [xyByte ii, op8 (0x46 + 8 * r.code), d] s t ∧ MainOnly (19 - 4) s t
        ∧ t.getF = s.getF ∧ RegSet r (s.read8 (s.getIi ii + d.signExtend 16)) s t)

/-- The stores of a byte: the addressed cell holds the value and nothing else changes (plain RAM, the model's choice: log 3). -/
def Obligations.StoreByteForms : Prop :=
  ∀ s : State,
    (∀ r, ∃ t, Runs (.ldMemReg r) [op8 (0x70 + r.code)] s t ∧ MemOnly 7 s t ∧ Put8 s.hl (s.getR r) s t)
    ∧ (∀ n, ∃ t, Runs (.ldMemN n) [0x36#8, n] s t ∧ MemOnly 10 s t ∧ Put8 s.hl n s t)
    ∧ (∃ t, Runs .ldMemBcA [0x02#8] s t ∧ MemOnly 7 s t ∧ Put8 s.bc s.getA s t)
    ∧ (∃ t, Runs .ldMemDeA [0x12#8] s t ∧ MemOnly 7 s t ∧ Put8 s.de s.getA s t)
    ∧ (∀ l h, ∃ t, Runs (.ldMemNnA (h ++ l)) [0x32#8, l, h] s t ∧ MemOnly 13 s t ∧ Put8 (h ++ l) s.getA s t)
    ∧ (∀ ii d r, ∃ t, Runs (.ldIdxReg ii d r) [xyByte ii, op8 (0x70 + r.code), d] s t ∧ MemOnly (19 - 4) s t
        ∧ Put8 (s.getIi ii + d.signExtend 16) (s.getR r) s t)
    ∧ (∀ ii d n, ∃ t, Runs (.ldIdxN ii d n) [xyByte ii, 0x36#8, d, n] s t ∧ MemOnly (19 - 4) s t
        ∧ Put8 (s.getIi ii + d.signExtend 16) n s t)

/-- `LD p,p'`, `LD IIH,n`, `LD IIL,n`: one operand of tables `DD`/`FD` is written; no flag changes. -/
def Obligations.HalfIndexLoads : Prop :=
  ∀ (s : State) (ii : Idx),
    (∀ p p', WellFormed (.ldPP ii p p') →
      ∃ t, Runs (.ldPP ii p p') [xyByte ii, op8 (0x40 + 8 * p.code + p'.code)] s t
        ∧ t = { s with af := t.af, bc := t.bc, de := t.de, ix := t.ix, iy := t.iy, cycles := s.cycles + (8 - 4) }
        ∧ SameMem s t ∧ t.getF = s.getF ∧ t.getIi (otherIdx ii) = s.getIi (otherIdx ii)
        ∧ t.getP ii p = s.getP ii p' ∧ ∀ x, x ≠ p → t.getP ii x = s.getP ii x)
    ∧ (∀ n, ∃ t, Runs (.ldIihN ii n) [xyByte ii, 0x26#8, n] s t
        ∧ LoadsIdx (11 - 4) ii (n ++ (s.getIi ii).extractLsb' 0 8) s t)
    ∧ (∀ n, ∃ t, Runs (.ldIilN ii n) [xyByte ii, 0x2E#8, n] s t
        ∧ LoadsIdx (11 - 4) ii ((s.getIi ii).extractLsb' 8 8 ++ n) s t)

/-- `LD A,I` and `LD A,R` load `A` and set the flags with `P/V` from `iff2`; `LD I,A` and `LD R,A` write all 8 bits; no
instruction but `LD R,A` changes bit 7 of `R`. -/
def Obligations.SystemRegisterLoads : Prop :=
  (∀ (i : Instr) (s t : State), exec i s = .next t → t.r.getLsbD 7 ≠ s.r.getLsbD 7 → effective i = .ldRA)
  ∧ ∀ s : State,
    (∃ t, Runs .ldAI [0xED#8, 0x57#8] s t ∧ AfOnly (9 - 4) s t ∧ t.getA = s.i
        ∧ FlagsOf s.i t.getF false s.iff2 false (s.getF.getLsbD 0))
    ∧ (∃ t, Runs .ldAR [0xED#8, 0x5F#8] s t ∧ AfOnly (9 - 4) s t ∧ t.getA = s.r
        ∧ FlagsOf s.r t.getF false s.iff2 false (s.getF.getLsbD 0))
    ∧ Runs .ldIA [0xED#8, 0x47#8] s { s with i := s.getA, cycles := s.cycles + (9 - 4) }
    ∧ Runs .ldRA [0xED#8, 0x4F#8] s { s with r := s.getA, cycles := s.cycles + (9 - 4) }

/-- The 16-bit loads of a pair or an index register: it holds the word, no flag and no other register changes. -/
def Obligations.LoadPairForms : Prop :=
  ∀ s : State,
    (∀ ss l h, ∃ t, Runs (.ldSsNn ss (h ++ l)) [op8 (0x01 + 16 * ss.code), l, h] s t ∧ PairOnly 10 s t
        ∧ PairSet ss (h ++ l) s t)
    ∧ (∀ ii l h, ∃ t, Runs (.ldIiNn ii (h ++ l)) [xyByte ii, 0x21#8, l, h] s t ∧ LoadsIdx (14 - 4) ii (h ++ l) s t)
    ∧ (∀ l h, ∃ t, Runs (.ldHlMemNn (h ++ l)) [0x2A#8, l, h] s t ∧ PairOnly 16 s t
        ∧ PairSet .hl (wordAt s (h ++ l)) s t)
    ∧ (∀ ss l h, ∃ t, Runs (.ldSsMemNn ss (h ++ l)) [0xED#8, op8 (0x4B + 16 * ss.code), l, h] s t
        ∧ PairOnly (20 - 4) s t ∧ PairSet ss (wordAt s (h ++ l)) s t)
    ∧ (∀ ii l h, ∃ t, Runs (.ldIiMemNn ii (h ++ l)) [xyByte ii, 0x2A#8, l, h] s t
        ∧ LoadsIdx (20 - 4) ii (wordAt s (h ++ l)) s t)
    ∧ (∃ t, Runs .ldSpHl [0xF9#8] s t ∧ PairOnly 6 s t ∧ PairSet .sp s.hl s t)
    ∧ (∀ ii, ∃ t, Runs (.ldSpIi ii) [xyByte ii, 0xF9#8] s t ∧ PairOnly (10 - 4) s t ∧ PairSet .sp (s.getIi ii) s t)

/-- The 16-bit stores: the word stands at the address, low byte first, and nothing else changes (plain RAM, the model's choice:
log 3). -/
def Obligations.StoreWordForms : Prop :=
  ∀ (s : State) (l h : Byte),
    (∃ t, Runs (.ldMemNnHl (h ++ l)) [0x22#8, l, h] s t ∧ MemOnly 16 s t ∧ Put16 (h ++ l) s.hl s t)
    ∧ (∀ ss, ∃ t, Runs (.ldMemNnSs (h ++ l) ss) [0xED#8, op8 (0x43 + 16 * ss.code), l, h] s t ∧ MemOnly (20 - 4) s t
        ∧ Put16 (h ++ l) (s.getSs ss) s t)
    ∧ (∀ ii, ∃ t, Runs (.ldMemNnIi (h ++ l) ii) [xyByte ii, 0x22#8, l, h] s t ∧ MemOnly (20 - 4) s t
        ∧ Put16 (h ++ l) (s.getIi ii) s t)

/-- `PUSH` and `POP`: the word goes to the two bytes below `SP`, and nothing else changes in memory (plain RAM, the model's choice:
log 3), or comes from the two bytes at `SP`. -/
def Obligations.StackForms : Prop :=
  ∀ s : State,
    (∀ qq, ∃ t, Runs (.pushQq qq) [op8 (0xC5 + 16 * qq.code)] s t
        ∧ t = { s with sp := s.sp - 2#16, mem := t.mem, cycles := s.cycles + 11 }
        ∧ Put16 (s.sp - 2#16) (s.getQq qq) s t)
    ∧ (∀ ii, ∃ t, Runs (.pushIi ii) [xyByte ii, 0xE5#8] s t
        ∧ t = { s with sp := s.sp - 2#16, mem := t.mem, cycles := s.cycles + (15 - 4) }
        ∧ Put16 (s.sp - 2#16) (s.getIi ii) s t)
    ∧ (∀ qq, ∃ t, Runs (.popQq qq) [op8 (0xC1 + 16 * qq.code)] s t
        ∧ t = { s with af := t.af, bc := t.bc, de := t.de, hl := t.hl, sp := s.sp + 2#16, cycles := s.cycles + 10 }
        ∧ SameMem s t ∧ PairQSet qq (wordAt s s.sp) s t)
    ∧ (∀ ii, ∃ t, Runs (.popIi ii) [xyByte ii, 0xE1#8] s t
        ∧ t = { s with ix := t.ix, iy := t.iy, sp := s.sp + 2#16, cycles := s.cycles + (14 - 4) }
        ∧ SameMem s t ∧ IdxSet ii (wordAt s s.sp) s t)

/-- The register exchanges swap contents, `EX (SP),HL` and `EX (SP),II` swap the register with the word at `SP`; nothing else
changes (in memory: plain RAM, the model's choice: log 3). -/
def Obligations.Exchanges : Prop :=
  ∀ s : State,
    Runs .exDeHl [0xEB#8] s { s with de := s.hl, hl := s.de, cycles := s.cycles + 4 }
    ∧ Runs .exAfAf [0x08#8] s { s with af := s.af', af' := s.af, cycles := s.cycles + 4 }
    ∧ Runs .exx [0xD9#8] s
        { s with bc := s.bc', de := s.de', hl := s.hl', bc' := s.bc, de' := s.de, hl' := s.hl, cycles := s.cycles + 4 }
    ∧ (∃ t, Runs .exSpHl [0xE3#8] s t ∧ t = { s with hl := wordAt s s.sp, mem := t.mem, cycles := s.cycles + 19 }
        ∧ Put16 s.sp s.hl s t)
    ∧ (∀ ii, ∃ t, Runs (.exSpIi ii) [xyByte ii, 0xE3#8] s t
        ∧ t = { s with ix := t.ix, iy := t.iy, mem := t.mem, cycles := s.cycles + (23 - 4) }
        ∧ IdxSet ii (wordAt s s.sp) s t ∧ Put16 s.sp (s.getIi ii) s t)

/-! ## 8-bit arithmetic and logic (42_arith8.md) -/

/-- The cores' half carry and overflow are the bit formulas the spec gives beside the integer ones. -/
def Obligations.CoreBitFormulas : Prop :=
  ∀ (a b : Byte) (c : Bool),
    (let o := add8 a b c
     o.r = a + b + BitVec.ofNat 8 c.toNat ∧ o.h = (a ^^^ b ^^^ o.r).getLsbD 4
       ∧ o.v = ((a ^^^ o.r) &&& (b ^^^ o.r)).getLsbD 7 ∧ o.s = o.r.getLsbD 7 ∧ (o.z = true ↔ o.r = 0#8))
    ∧ (let o := sub8 a b c
       o.r = a - b - BitVec.ofNat 8 c.toNat ∧ o.h = (a ^^^ b ^^^ o.r).getLsbD 4
         ∧ o.v = ((a ^^^ b) &&& (a ^^^ o.r)).getLsbD 7 ∧ o.s = o.r.getLsbD 7 ∧ (o.z = true ↔ o.r = 0#8))

/-- `ADD A,s` and `ADC A,s` in all six operand forms. -/
def Obligations.AddAndAdcForms : Prop :=
  AluForms 0 .addReg .addMem .addN .addIdx .addIih .addIil (fun n v s t => AddsToA n v false s t)
    ∧ AluForms 1 .adcReg .adcMem .adcN .adcIdx .adcIih .adcIil (fun n v s t => AddsToA n v (s.getF.getLsbD 0) s t)

/-- `SUB s` and `SBC A,s` in all six operand forms. -/
def Obligations.SubAndSbcForms : Prop :=
  AluForms 2 .subReg .subMem .subN .subIdx .subIih .subIil (fun n v s t => SubsFromA n v false s t)
    ∧ AluForms 3 .sbcReg .sbcMem .sbcN .sbcIdx .sbcIih .sbcIil (fun n v s t => SubsFromA n v (s.getF.getLsbD 0) s t)

/-- `AND s`, `XOR s` and `OR s` in all six operand forms. -/
def Obligations.LogicForms : Prop :=
  AluForms 4 .andReg .andMem .andN .andIdx .andIih .andIil (fun n v s t => LogicToA n (s.getA &&& v) true s t)
    ∧ AluForms 5 .xorReg .xorMem .xorN .xorIdx .xorIih .xorIil (fun n v s t => LogicToA n (s.getA ^^^ v) false s t)
    ∧ AluForms 6 .orReg .orMem .orN .orIdx .orIih .orIil (fun n v s t => LogicToA n (s.getA ||| v) false s t)

/-- `CP s` in all six operand forms. That `Y` and `X` come from the operand is the spec's decision D8 (log 11). -/
def Obligations.CompareForms : Prop :=
  AluForms 7 .cpReg .cpMem .cpN .cpIdx .cpIih .cpIil (fun n v s t => ComparesWithA n v s t)

/-- `INC m` and `DEC m` in all five operand forms; `C` is kept. The memory forms rest on plain RAM, the model's choice (log 3). -/
def Obligations.IncAndDecForms : Prop :=
  StepForms 4 .incReg .incMem .incIdx .incIih .incIil (fun v => v + 1#8) IncFlags
    ∧ StepForms 5 .decReg .decMem .decIdx .decIih .decIil (fun v => v - 1#8) DecFlags

/-- `DAA`: the correction, the result, and every flag. -/
def Obligations.DecimalAdjust : Prop :=
  ∀ s : State, ∃ t, Runs .daa [0x27#8] s t ∧ AfOnly 4 s t
    ∧ (let a := s.getA
       let (h, n, c) := (s.getF.getLsbD 4, s.getF.getLsbD 1, s.getF.getLsbD 0)
       let low := h || decide (9 < a.toNat % 16)
       let high := c || decide (0x99 < a.toNat)
       let corr := (if low then 0x06 else 0) + (if high then 0x60 else 0)
       t.getA.toNat = (if n then a.toNat + 256 - corr else a.toNat + corr) % 256
         ∧ FlagsOf t.getA t.getF
             (if n then h && decide (a.toNat % 16 < 6) else decide (9 < a.toNat % 16)) (evenOnes t.getA) n high)

/-- `CPL`, `NEG` and its mirrors, `SCF`, `CCF`. -/
def Obligations.AccumulatorAndFlagOps : Prop :=
  ∀ s : State,
    (∃ t, Runs .cpl [0x2F#8] s t ∧ AfOnly 4 s t ∧ t.getA = ~~~s.getA
        ∧ FlagBits t.getF (s.getF.getLsbD 7) (s.getF.getLsbD 6) (!s.getA.getLsbD 5) true (!s.getA.getLsbD 3)
            (s.getF.getLsbD 2) true (s.getF.getLsbD 0))
    ∧ (∀ y : BitVec 3, ∃ t, Runs (.neg y) [0xED#8, op8 (0x44 + 8 * y.toNat)] s t ∧ AfOnly (8 - 4) s t
        ∧ t.getA = 0#8 - s.getA
        ∧ FlagsOf t.getA t.getF (decide (s.getA.toNat % 16 ≠ 0)) (decide (s.getA = 0x80#8)) true
            (decide (s.getA ≠ 0#8)))
    ∧ (∃ t, Runs .scf [0x37#8] s t ∧ AfOnly 4 s t ∧ t.getA = s.getA
        ∧ FlagBits t.getF (s.getF.getLsbD 7) (s.getF.getLsbD 6) (s.getA.getLsbD 5) false (s.getA.getLsbD 3)
            (s.getF.getLsbD 2) false true)
    ∧ (∃ t, Runs .ccf [0x3F#8] s t ∧ AfOnly 4 s t ∧ t.getA = s.getA
        ∧ FlagBits t.getF (s.getF.getLsbD 7) (s.getF.getLsbD 6) (s.getA.getLsbD 5) (s.getF.getLsbD 0)
            (s.getA.getLsbD 3) (s.getF.getLsbD 2) false (!s.getF.getLsbD 0))

/-! ## 16-bit arithmetic (43_arith16.md) -/

/-- `ADD HL,ss` and `ADD II,pp`: the sum modulo 65536; `S`, `Z`, `P` are kept. -/
def Obligations.AddPairForms : Prop :=
  ∀ s : State,
    let flags := fun (a b : Word) (t : State) =>
      FlagBits t.getF (s.getF.getLsbD 7) (s.getF.getLsbD 6) ((a + b).getLsbD 13)
        (decide (0x0FFF < a.toNat % 4096 + b.toNat % 4096)) ((a + b).getLsbD 11) (s.getF.getLsbD 2) false
        (decide (0xFFFF < a.toNat + b.toNat))
    (∀ ss, ∃ t, Runs (.addHlSs ss) [op8 (0x09 + 16 * ss.code)] s t ∧ MainOnly 11 s t ∧ t.getA = s.getA ∧ t.bc = s.bc
        ∧ t.de = s.de ∧ t.hl = s.hl + s.getSs ss ∧ flags s.hl (s.getSs ss) t)
    ∧ (∀ ii pp, ∃ t, Runs (.addIiPp ii pp) [xyByte ii, op8 (0x09 + 16 * pp.code)] s t ∧ XyOnly (15 - 4) s t
        ∧ t.getA = s.getA ∧ IdxSet ii (s.getIi ii + s.getPp ii pp) s t ∧ flags (s.getIi ii) (s.getPp ii pp) t)

/-- `ADC HL,ss` and `SBC HL,ss`: the result modulo 65536 and all eight flags. -/
def Obligations.CarryPairForms : Prop :=
  ∀ (s : State) (ss : Pair),
    let (a, b, c) := (s.hl, s.getSs ss, s.getF.getLsbD 0)
    (∃ t, Runs (.adcHlSs ss) [0xED#8, op8 (0x4A + 16 * ss.code)] s t ∧ MainOnly (15 - 4) s t ∧ t.getA = s.getA
        ∧ t.bc = s.bc ∧ t.de = s.de ∧ t.hl = a + b + BitVec.ofNat 16 c.toNat
        ∧ FlagBits t.getF (t.hl.getLsbD 15) (decide (t.hl = 0#16)) (t.hl.getLsbD 13)
            (decide (0x0FFF < a.toNat % 4096 + b.toNat % 4096 + c.toNat)) (t.hl.getLsbD 11)
            (decide (a.toInt + b.toInt + c.toNat < -32768 ∨ 32767 < a.toInt + b.toInt + c.toNat)) false
            (decide (0xFFFF < a.toNat + b.toNat + c.toNat)))
    ∧ (∃ t, Runs (.sbcHlSs ss) [0xED#8, op8 (0x42 + 16 * ss.code)] s t ∧ MainOnly (15 - 4) s t ∧ t.getA = s.getA
        ∧ t.bc = s.bc ∧ t.de = s.de ∧ t.hl = a - b - BitVec.ofNat 16 c.toNat
        ∧ FlagBits t.getF (t.hl.getLsbD 15) (decide (t.hl = 0#16)) (t.hl.getLsbD 13)
            (decide (a.toNat % 4096 < b.toNat % 4096 + c.toNat)) (t.hl.getLsbD 11)
            (decide (a.toInt - b.toInt - c.toNat < -32768 ∨ 32767 < a.toInt - b.toInt - c.toNat)) true
            (decide (a.toNat < b.toNat + c.toNat)))

/-- `INC` and `DEC` of a pair or an index register: one more or one less, wrapping; no flag changes. -/
def Obligations.IncAndDecPairs : Prop :=
  ∀ s : State,
    (∀ ss, ∃ t, Runs (.incSs ss) [op8 (0x03 + 16 * ss.code)] s t ∧ PairOnly 6 s t ∧ PairSet ss (s.getSs ss + 1#16) s t)
    ∧ (∀ ii, ∃ t, Runs (.incIi ii) [xyByte ii, 0x23#8] s t ∧ LoadsIdx (10 - 4) ii (s.getIi ii + 1#16) s t)
    ∧ (∀ ss, ∃ t, Runs (.decSs ss) [op8 (0x0B + 16 * ss.code)] s t ∧ PairOnly 6 s t
        ∧ PairSet ss (s.getSs ss - 1#16) s t)
    ∧ (∀ ii, ∃ t, Runs (.decIi ii) [xyByte ii, 0x2B#8] s t ∧ LoadsIdx (10 - 4) ii (s.getIi ii - 1#16) s t)

/-! ## Rotates, shifts, bits (44_rotate_shift.md, 45_bit.md) -/

/-- `RLCA`, `RRCA`, `RLA`, `RRA`: the rotated `A` and the bit shifted out. -/
def Obligations.AccumulatorRotates : Prop :=
  ∀ s : State,
    let a := s.getA
    let c := s.getF.getLsbD 0
    (∃ t, Runs .rlca [0x07#8] s t ∧ RotatesA (a.rotateLeft 1) (a.getLsbD 7) s t)
    ∧ (∃ t, Runs .rrca [0x0F#8] s t ∧ RotatesA (a.rotateRight 1) (a.getLsbD 0) s t)
    ∧ (∃ t, Runs .rla [0x17#8] s t ∧ RotatesA (a.extractLsb' 0 7 ++ BitVec.ofBool c) (a.getLsbD 7) s t)
    ∧ (∃ t, Runs .rra [0x1F#8] s t ∧ RotatesA (BitVec.ofBool c ++ a.extractLsb' 1 7) (a.getLsbD 0) s t)

/-- The eight `CB` rotates and shifts in all four forms. The form `(II+d),r` is the spec's decision D24 (log 12); the memory forms
rest on plain RAM, the model's choice (log 3). -/
def Obligations.RotateAndShiftForms : Prop :=
  RotForms 0 .rlcReg .rlcMem .rlcIdx .rlcIdxReg (fun v _ => v.rotateLeft 1) (fun v => v.getLsbD 7)
    ∧ RotForms 1 .rrcReg .rrcMem .rrcIdx .rrcIdxReg (fun v _ => v.rotateRight 1) (fun v => v.getLsbD 0)
    ∧ RotForms 2 .rlReg .rlMem .rlIdx .rlIdxReg (fun v c => v.extractLsb' 0 7 ++ BitVec.ofBool c) (fun v => v.getLsbD 7)
    ∧ RotForms 3 .rrReg .rrMem .rrIdx .rrIdxReg (fun v c => BitVec.ofBool c ++ v.extractLsb' 1 7) (fun v => v.getLsbD 0)
    ∧ RotForms 4 .slaReg .slaMem .slaIdx .slaIdxReg (fun v _ => v.extractLsb' 0 7 ++ 0#1) (fun v => v.getLsbD 7)
    ∧ RotForms 5 .sraReg .sraMem .sraIdx .sraIdxReg (fun v _ => v.sshiftRight 1) (fun v => v.getLsbD 0)
    ∧ RotForms 6 .sllReg .sllMem .sllIdx .sllIdxReg (fun v _ => v.extractLsb' 0 7 ++ 1#1) (fun v => v.getLsbD 7)
    ∧ RotForms 7 .srlReg .srlMem .srlIdx .srlIdxReg (fun v _ => 0#1 ++ v.extractLsb' 1 7) (fun v => v.getLsbD 0)

/-- `RLD` and `RRD` move a digit round through `A` and the cell at `HL`; `C` is kept. The cell rests on plain RAM, the model's
choice (log 3). -/
def Obligations.DigitRotates : Prop :=
  ∀ s : State,
    let v := s.read8 s.hl
    let a := s.getA
    (∃ t, Runs .rld [0xED#8, 0x6F#8] s t ∧ AfMemOnly (18 - 4) s t
        ∧ t.getA = a.extractLsb' 4 4 ++ v.extractLsb' 4 4 ∧ Put8 s.hl (v.extractLsb' 0 4 ++ a.extractLsb' 0 4) s t
        ∧ FlagsOf t.getA t.getF false (evenOnes t.getA) false (s.getF.getLsbD 0))
    ∧ (∃ t, Runs .rrd [0xED#8, 0x67#8] s t ∧ AfMemOnly (18 - 4) s t
        ∧ t.getA = a.extractLsb' 4 4 ++ v.extractLsb' 0 4 ∧ Put8 s.hl (a.extractLsb' 0 4 ++ v.extractLsb' 4 4) s t
        ∧ FlagsOf t.getA t.getF false (evenOnes t.getA) false (s.getF.getLsbD 0))

/-- `BIT b` in its three forms: the flags from the tested bit, nothing written but `F`; after `BIT b,(HL)` the bits `Y` and
`X` are whatever the free draw gives (log 6). -/
def Obligations.BitTestForms : Prop :=
  ∀ (s : State) (b : BitVec 3),
    (∀ r, ∃ t, Runs (.bitReg b r) [0xCB#8, op8 (0x40 + 8 * b.toNat + r.code)] s t ∧ AfOnly (8 - 4) s t
        ∧ t.getA = s.getA
        ∧ BitFlags b ((s.getR r).getLsbD b.toNat) ((s.getR r).getLsbD 5) ((s.getR r).getLsbD 3) s t)
    ∧ (∃ t y x, Runs (.bitMem b) [0xCB#8, op8 (0x46 + 8 * b.toNat)] s t
        ∧ t = { s with af := t.af, draws := s.draws + 1, cycles := s.cycles + (12 - 4) } ∧ SameMem s t
        ∧ t.getA = s.getA ∧ BitFlags b ((s.read8 s.hl).getLsbD b.toNat) y x s t)
    ∧ (∀ ii d z, let ea := s.getIi ii + d.signExtend 16
        ∃ t, Runs (.bitIdx ii d b z) [xyByte ii, 0xCB#8, d, op8 (0x40 + 8 * b.toNat + z.toNat)] s t
        ∧ AfOnly (20 - 4) s t ∧ t.getA = s.getA
        ∧ BitFlags b ((s.read8 ea).getLsbD b.toNat) (ea.getLsbD 13) (ea.getLsbD 11) s t)

/-- `SET b` and `RES b` in all four forms. The form `(II+d),r` is the spec's decision D24 (log 12); the memory forms rest on plain
RAM, the model's choice (log 3). -/
def Obligations.SetAndResetForms : Prop :=
  SetResForms 3 .setReg .setMem .setIdx .setIdxReg true ∧ SetResForms 2 .resReg .resMem .resIdx .resIdxReg false

/-! ## Block instructions (46_block.md) -/

/-- `LDI`, `LDD`, `LDIR`, `LDDR`: one element moved; the repeat forms continue while `BC` is not 0. The store rests on plain RAM,
the model's choice (log 3). -/
def Obligations.BlockMoves : Prop :=
  ∀ s : State,
    (∃ t, Runs .ldi [0xED#8, 0xA0#8] s t ∧ MoveElement 1#16 s t ∧ BlockEnd false s t)
    ∧ (∃ t, Runs .ldd [0xED#8, 0xA8#8] s t ∧ MoveElement (-1#16) s t ∧ BlockEnd false s t)
    ∧ (∃ t, Runs .ldir [0xED#8, 0xB0#8] s t ∧ MoveElement 1#16 s t ∧ BlockEnd (decide (t.bc ≠ 0#16)) s t)
    ∧ (∃ t, Runs .lddr [0xED#8, 0xB8#8] s t ∧ MoveElement (-1#16) s t ∧ BlockEnd (decide (t.bc ≠ 0#16)) s t)

/-- `CPI`, `CPD`, `CPIR`, `CPDR`: one element compared; the repeat forms continue while `BC` is not 0 and `Z` is 0. -/
def Obligations.BlockSearches : Prop :=
  ∀ s : State,
    (∃ t, Runs .cpi [0xED#8, 0xA1#8] s t ∧ SearchElement 1#16 s t ∧ BlockEnd false s t)
    ∧ (∃ t, Runs .cpd [0xED#8, 0xA9#8] s t ∧ SearchElement (-1#16) s t ∧ BlockEnd false s t)
    ∧ (∃ t, Runs .cpir [0xED#8, 0xB1#8] s t ∧ SearchElement 1#16 s t
        ∧ BlockEnd (decide (t.bc ≠ 0#16 ∧ t.getF.getLsbD 6 = false)) s t)
    ∧ (∃ t, Runs .cpdr [0xED#8, 0xB9#8] s t ∧ SearchElement (-1#16) s t
        ∧ BlockEnd (decide (t.bc ≠ 0#16 ∧ t.getF.getLsbD 6 = false)) s t)

/-- `INI`, `IND`, `INIR`, `INDR`: one byte read from port `BC` and stored; the repeat forms continue while `B` is not 0. The
model's choices: the store goes to plain RAM (log 3), the platform reacts in the form of logs 4 and 24. -/
def Obligations.BlockInputs : Prop :=
  ∀ s : State,
    (∃ t, Runs .ini [0xED#8, 0xA2#8] s t ∧ InputElement 1#16 1#8 s t ∧ BlockEnd false s t)
    ∧ (∃ t, Runs .ind [0xED#8, 0xAA#8] s t ∧ InputElement (-1#16) (-1#8) s t ∧ BlockEnd false s t)
    ∧ (∃ t, Runs .inir [0xED#8, 0xB2#8] s t ∧ InputElement 1#16 1#8 s t ∧ BlockEnd (decide (t.getB ≠ 0#8)) s t)
    ∧ (∃ t, Runs .indr [0xED#8, 0xBA#8] s t ∧ InputElement (-1#16) (-1#8) s t ∧ BlockEnd (decide (t.getB ≠ 0#8)) s t)

/-- `OUTI`, `OUTD`, `OTIR`, `OTDR`: the byte at `HL` written to port `BC` with `B` already decremented; the repeat forms
continue while `B` is not 0. The form of the platform's reaction is the model's choice (logs 4, 24). -/
def Obligations.BlockOutputs : Prop :=
  ∀ s : State,
    (∃ t, Runs .outi [0xED#8, 0xA3#8] s t ∧ OutputElement 1#16 s t ∧ BlockEnd false s t)
    ∧ (∃ t, Runs .outd [0xED#8, 0xAB#8] s t ∧ OutputElement (-1#16) s t ∧ BlockEnd false s t)
    ∧ (∃ t, Runs .otir [0xED#8, 0xB3#8] s t ∧ OutputElement 1#16 s t ∧ BlockEnd (decide (t.getB ≠ 0#8)) s t)
    ∧ (∃ t, Runs .otdr [0xED#8, 0xBB#8] s t ∧ OutputElement (-1#16) s t ∧ BlockEnd (decide (t.getB ≠ 0#8)) s t)

/-! ## Control transfer (47_control_transfer.md) -/

/-- The eight conditions read one bit of `F` each, in complementary pairs. -/
def Obligations.Conditions : Prop :=
  ∀ s : State,
    s.cond .z = s.getF.getLsbD 6 ∧ s.cond .c = s.getF.getLsbD 0 ∧ s.cond .pe = s.getF.getLsbD 2
      ∧ s.cond .m = s.getF.getLsbD 7 ∧ s.cond .nz = !s.cond .z ∧ s.cond .nc = !s.cond .c ∧ s.cond .po = !s.cond .pe
      ∧ s.cond .p = !s.cond .m

/-- The jumps: `PC` goes to the target, relative to the address after the instruction for `JR` and `DJNZ`. -/
def Obligations.Jumps : Prop :=
  ∀ s : State,
    (∀ l h, Runs (.jp (h ++ l)) [0xC3#8, l, h] s { s with pc := h ++ l, cycles := s.cycles + 10 })
    ∧ (∀ cc l h, Runs (.jpCc cc (h ++ l)) [op8 (0xC2 + 8 * cc.code), l, h] s
        { s with pc := if s.cond cc then h ++ l else s.pc, cycles := s.cycles + 10 })
    ∧ (∀ e, Runs (.jr e) [0x18#8, e] s { s with pc := s.pc + e.signExtend 16, cycles := s.cycles + 12 })
    ∧ (∀ cc e, WellFormed (.jrCc cc e) → Runs (.jrCc cc e) [op8 (0x20 + 8 * cc.code), e] s
        { s with pc := if s.cond cc then s.pc + e.signExtend 16 else s.pc,
                 cycles := s.cycles + if s.cond cc then 12 else 7 })
    ∧ (∀ e, ∃ t, Runs (.djnz e) [0x10#8, e] s t ∧ t.getB = s.getB - 1#8 ∧ t.getC = s.getC
        ∧ t = { s with bc := t.bc, pc := if t.getB = 0#8 then s.pc else s.pc + e.signExtend 16,
                       cycles := s.cycles + if t.getB = 0#8 then 8 else 13 })
    ∧ Runs .jpHl [0xE9#8] s { s with pc := s.hl, cycles := s.cycles + 4 }
    ∧ (∀ ii, Runs (.jpIi ii) [xyByte ii, 0xE9#8] s { s with pc := s.getIi ii, cycles := s.cycles + (8 - 4) })

/-- The calls and restarts push the address after the instruction; a call that is not taken pushes nothing. That the pushed word
reads back and nothing else changes in memory is plain RAM, the model's choice (log 3). -/
def Obligations.Calls : Prop :=
  ∀ s : State,
    (∀ l h, ∃ t, Runs (.call (h ++ l)) [0xCD#8, l, h] s t ∧ Called 17 (h ++ l) s t)
    ∧ (∀ cc l h, ∃ t, Runs (.callCc cc (h ++ l)) [op8 (0xC4 + 8 * cc.code), l, h] s t
        ∧ (s.cond cc = true → Called 17 (h ++ l) s t)
        ∧ (s.cond cc = false → t = { s with cycles := s.cycles + 10 }))
    ∧ (∀ y : BitVec 3, ∃ t, Runs (.rst y) [op8 (0xC7 + 8 * y.toNat)] s t
        ∧ Called 11 (BitVec.ofNat 16 (8 * y.toNat)) s t)

/-- The returns pop `PC`; `RETN`, its mirrors and `RETI` also copy `iff2` to `iff1` and leave the check's status alone. -/
def Obligations.Returns : Prop :=
  ∀ s : State,
    (∃ t, Runs .ret [0xC9#8] s t ∧ Returned 10 s t)
    ∧ (∀ cc, ∃ t, Runs (.retCc cc) [op8 (0xC0 + 8 * cc.code)] s t
        ∧ (s.cond cc = true → Returned 11 s t) ∧ (s.cond cc = false → t = { s with cycles := s.cycles + 5 }))
    ∧ (∀ y : BitVec 3, WellFormed (.retn y) → ∃ t, Runs (.retn y) [0xED#8, op8 (0x45 + 8 * y.toNat)] s t
        ∧ Returned (14 - 4) { s with iff1 := s.iff2 } t)
    ∧ (∃ t, Runs .reti [0xED#8, 0x4D#8] s t ∧ Returned (14 - 4) { s with iff1 := s.iff2 } t)

/-! ## Ports and CPU control (48_io_cpu_control.md) -/

/-- Port input: the port is `A ++ n` or `BC`, the byte it answers goes to the register, `IN r,(C)` and `IN (C)` set the
flags. The form of the platform's reaction is the model's choice (logs 4, 24). -/
def Obligations.PortInputs : Prop :=
  ∀ s : State,
    (∀ n, ∃ t v, Runs (.inAN n) [0xDB#8, n] s t ∧ PortStep 11 (.read (s.getA ++ n) v) s t ∧ RegSet .a v s t
        ∧ t.getF = s.getF)
    ∧ (∀ r, ∃ t v, Runs (.inRegC r) [0xED#8, op8 (0x40 + 8 * r.code)] s t ∧ PortStep (12 - 4) (.read s.bc v) s t
        ∧ RegSet r v s t ∧ FlagsOf v t.getF false (evenOnes v) false (s.getF.getLsbD 0))
    ∧ (∃ t v, Runs .inFC [0xED#8, 0x70#8] s t ∧ PortStep (12 - 4) (.read s.bc v) s t
        ∧ t.getA = s.getA ∧ t.bc = s.bc ∧ t.de = s.de ∧ t.hl = s.hl
        ∧ FlagsOf v t.getF false (evenOnes v) false (s.getF.getLsbD 0))

/-- Port output: the port is `A ++ n` or `BC`; no register and no flag changes. The form of the platform's reaction is the model's
choice (logs 4, 24). -/
def Obligations.PortOutputs : Prop :=
  ∀ s : State,
    let kept := fun t : State => t.af = s.af ∧ t.bc = s.bc ∧ t.de = s.de ∧ t.hl = s.hl
    (∀ n, ∃ t, Runs (.outNA n) [0xD3#8, n] s t ∧ PortStep 11 (.write (s.getA ++ n) s.getA) s t ∧ kept t)
    ∧ (∀ r, ∃ t, Runs (.outCReg r) [0xED#8, op8 (0x41 + 8 * r.code)] s t ∧ PortStep (12 - 4) (.write s.bc (s.getR r)) s t
        ∧ kept t)
    ∧ (∃ t, Runs .outCZero [0xED#8, 0x71#8] s t ∧ PortStep (12 - 4) (.write s.bc 0x00#8) s t ∧ kept t)

/-- `NOP`, `HALT`, `DI`, `EI`, `IM 0`, `IM 1`, `IM 2` and their mirrors, and the `ED` no-operations. -/
def Obligations.CpuControl : Prop :=
  ∀ s : State,
    Runs .nop [0x00#8] s { s with cycles := s.cycles + 4 }
    ∧ Runs .halt [0x76#8] s { s with halted := true, pfx := .halt, cycles := s.cycles + 4 }
    ∧ Runs .di [0xF3#8] s { s with iff1 := false, iff2 := false, cycles := s.cycles + 4 }
    ∧ Runs .ei [0xFB#8] s { s with iff1 := true, iff2 := true, cycles := s.cycles + 4, istat := .ei (s.cycles + 4) }
    ∧ (∀ y : BitVec 3, WellFormed (.im0 y) →
        Runs (.im0 y) [0xED#8, op8 (0x46 + 8 * y.toNat)] s { s with im := .im0, cycles := s.cycles + (8 - 4) })
    ∧ (∀ y : BitVec 3, WellFormed (.im1 y) →
        Runs (.im1 y) [0xED#8, op8 (0x46 + 8 * y.toNat)] s { s with im := .im1, cycles := s.cycles + (8 - 4) })
    ∧ (∀ y : BitVec 3, WellFormed (.im2 y) →
        Runs (.im2 y) [0xED#8, op8 (0x46 + 8 * y.toNat)] s { s with im := .im2, cycles := s.cycles + (8 - 4) })
    ∧ (∀ op, WellFormed (.nopEd op) → Runs (.nopEd op) [0xED#8, op] s { s with cycles := s.cycles + (8 - 4) })

/-! ## Prefix bytes and kept entries (30_encoding.md R70 to R72) -/

/-- The prefix bytes move the decode state and add 4 cycles, but 0 for `CB` after `DD` or `FD`. -/
def Obligations.PrefixBytes : Prop :=
  ∀ s : State,
    Runs .prefixCb [0xCB#8] s { s with pfx := .cb, cycles := s.cycles + 4 }
    ∧ Runs .prefixEd [0xED#8] s { s with pfx := .ed, cycles := s.cycles + 4 }
    ∧ Runs .prefixDd [0xDD#8] s { s with pfx := .dd, cycles := s.cycles + 4 }
    ∧ Runs .prefixFd [0xFD#8] s { s with pfx := .fd, cycles := s.cycles + 4 }
    ∧ Runs (.prefixCbXy .ix) [0xDD#8, 0xCB#8] s { s with pfx := .ddcb }
    ∧ Runs (.prefixCbXy .iy) [0xFD#8, 0xCB#8] s { s with pfx := .fdcb }
    ∧ (∀ ii, Runs (.prefixDdXy ii) [xyByte ii, 0xDD#8] s { s with pfx := .dd, cycles := s.cycles + 4 })
    ∧ (∀ ii, Runs (.prefixFdXy ii) [xyByte ii, 0xFD#8] s { s with pfx := .fd, cycles := s.cycles + 4 })
    ∧ (∀ ii, Runs (.prefixEdXy ii) [xyByte ii, 0xED#8] s { s with pfx := .ed, cycles := s.cycles + 4 })

/-- A kept entry of tables `DD`/`FD` is the prefix byte before the bytes of the table `NP` entry, completes, and does exactly
what that entry does. -/
def Obligations.KeptEntries : Prop :=
  ∀ (ii : Idx) (i : Instr) (s : State), WellFormed (.npUnchanged ii i) →
    i.table = .np ∧ encode (.npUnchanged ii i) = xyByte ii :: encode i
      ∧ ∃ t, exec (.npUnchanged ii i) s = .next t ∧ exec i s = .next t

end
end

