-- ==== Sys2Proof/Laws/State.lean ====
section
/-! SUPPORT. One lemma per field per named update of the state, so that later proofs never unfold a record update. A field an
update may change under several names (`setR` and its like) is read back by the lemmas of Laws/Registers.lean. -/

namespace Sys2Proof.Machine.State

variable (s : State)

/-! ## `write8` -/

@[simp] theorem write8_af (a : Word) (v : Byte) : (s.write8 a v).af = s.af := rfl
@[simp] theorem write8_bc (a : Word) (v : Byte) : (s.write8 a v).bc = s.bc := rfl
@[simp] theorem write8_de (a : Word) (v : Byte) : (s.write8 a v).de = s.de := rfl
@[simp] theorem write8_hl (a : Word) (v : Byte) : (s.write8 a v).hl = s.hl := rfl
@[simp] theorem write8_af' (a : Word) (v : Byte) : (s.write8 a v).af' = s.af' := rfl
@[simp] theorem write8_bc' (a : Word) (v : Byte) : (s.write8 a v).bc' = s.bc' := rfl
@[simp] theorem write8_de' (a : Word) (v : Byte) : (s.write8 a v).de' = s.de' := rfl
@[simp] theorem write8_hl' (a : Word) (v : Byte) : (s.write8 a v).hl' = s.hl' := rfl
@[simp] theorem write8_ix (a : Word) (v : Byte) : (s.write8 a v).ix = s.ix := rfl
@[simp] theorem write8_iy (a : Word) (v : Byte) : (s.write8 a v).iy = s.iy := rfl
@[simp] theorem write8_sp (a : Word) (v : Byte) : (s.write8 a v).sp = s.sp := rfl
@[simp] theorem write8_pc (a : Word) (v : Byte) : (s.write8 a v).pc = s.pc := rfl
@[simp] theorem write8_i (a : Word) (v : Byte) : (s.write8 a v).i = s.i := rfl
@[simp] theorem write8_r (a : Word) (v : Byte) : (s.write8 a v).r = s.r := rfl
@[simp] theorem write8_iff1 (a : Word) (v : Byte) : (s.write8 a v).iff1 = s.iff1 := rfl
@[simp] theorem write8_iff2 (a : Word) (v : Byte) : (s.write8 a v).iff2 = s.iff2 := rfl
@[simp] theorem write8_im (a : Word) (v : Byte) : (s.write8 a v).im = s.im := rfl
@[simp] theorem write8_halted (a : Word) (v : Byte) : (s.write8 a v).halted = s.halted := rfl
@[simp] theorem write8_pfx (a : Word) (v : Byte) : (s.write8 a v).pfx = s.pfx := rfl
@[simp] theorem write8_istat (a : Word) (v : Byte) : (s.write8 a v).istat = s.istat := rfl
@[simp] theorem write8_cycles (a : Word) (v : Byte) : (s.write8 a v).cycles = s.cycles := rfl
@[simp] theorem write8_mem (a : Word) (v : Byte) : (s.write8 a v).mem = s.mem.write a.toNat v := rfl
@[simp] theorem write8_ioIn (a : Word) (v : Byte) : (s.write8 a v).ioIn = s.ioIn := rfl
@[simp] theorem write8_ioOut (a : Word) (v : Byte) : (s.write8 a v).ioOut = s.ioOut := rfl
@[simp] theorem write8_ioLog (a : Word) (v : Byte) : (s.write8 a v).ioLog = s.ioLog := rfl
@[simp] theorem write8_reqNmi (a : Word) (v : Byte) : (s.write8 a v).reqNmi = s.reqNmi := rfl
@[simp] theorem write8_reqMi (a : Word) (v : Byte) : (s.write8 a v).reqMi = s.reqMi := rfl
@[simp] theorem write8_ioCount (a : Word) (v : Byte) : (s.write8 a v).ioCount = s.ioCount := rfl
@[simp] theorem write8_draws (a : Word) (v : Byte) : (s.write8 a v).draws = s.draws := rfl
@[simp] theorem write8_target (a : Word) (v : Byte) : (s.write8 a v).target = s.target := rfl

/-! ## `write16` -/

@[simp] theorem write16_af (a w : Word) : (s.write16 a w).af = s.af := rfl
@[simp] theorem write16_bc (a w : Word) : (s.write16 a w).bc = s.bc := rfl
@[simp] theorem write16_de (a w : Word) : (s.write16 a w).de = s.de := rfl
@[simp] theorem write16_hl (a w : Word) : (s.write16 a w).hl = s.hl := rfl
@[simp] theorem write16_af' (a w : Word) : (s.write16 a w).af' = s.af' := rfl
@[simp] theorem write16_bc' (a w : Word) : (s.write16 a w).bc' = s.bc' := rfl
@[simp] theorem write16_de' (a w : Word) : (s.write16 a w).de' = s.de' := rfl
@[simp] theorem write16_hl' (a w : Word) : (s.write16 a w).hl' = s.hl' := rfl
@[simp] theorem write16_ix (a w : Word) : (s.write16 a w).ix = s.ix := rfl
@[simp] theorem write16_iy (a w : Word) : (s.write16 a w).iy = s.iy := rfl
@[simp] theorem write16_sp (a w : Word) : (s.write16 a w).sp = s.sp := rfl
@[simp] theorem write16_pc (a w : Word) : (s.write16 a w).pc = s.pc := rfl
@[simp] theorem write16_i (a w : Word) : (s.write16 a w).i = s.i := rfl
@[simp] theorem write16_r (a w : Word) : (s.write16 a w).r = s.r := rfl
@[simp] theorem write16_iff1 (a w : Word) : (s.write16 a w).iff1 = s.iff1 := rfl
@[simp] theorem write16_iff2 (a w : Word) : (s.write16 a w).iff2 = s.iff2 := rfl
@[simp] theorem write16_im (a w : Word) : (s.write16 a w).im = s.im := rfl
@[simp] theorem write16_halted (a w : Word) : (s.write16 a w).halted = s.halted := rfl
@[simp] theorem write16_pfx (a w : Word) : (s.write16 a w).pfx = s.pfx := rfl
@[simp] theorem write16_istat (a w : Word) : (s.write16 a w).istat = s.istat := rfl
@[simp] theorem write16_cycles (a w : Word) : (s.write16 a w).cycles = s.cycles := rfl
@[simp] theorem write16_mem (a w : Word) : (s.write16 a w).mem = (s.mem.write a.toNat (lo w)).write (a + 1#16).toNat (hi w) := rfl
@[simp] theorem write16_ioIn (a w : Word) : (s.write16 a w).ioIn = s.ioIn := rfl
@[simp] theorem write16_ioOut (a w : Word) : (s.write16 a w).ioOut = s.ioOut := rfl
@[simp] theorem write16_ioLog (a w : Word) : (s.write16 a w).ioLog = s.ioLog := rfl
@[simp] theorem write16_reqNmi (a w : Word) : (s.write16 a w).reqNmi = s.reqNmi := rfl
@[simp] theorem write16_reqMi (a w : Word) : (s.write16 a w).reqMi = s.reqMi := rfl
@[simp] theorem write16_ioCount (a w : Word) : (s.write16 a w).ioCount = s.ioCount := rfl
@[simp] theorem write16_draws (a w : Word) : (s.write16 a w).draws = s.draws := rfl
@[simp] theorem write16_target (a w : Word) : (s.write16 a w).target = s.target := rfl

/-! ## `setA` -/

@[simp] theorem setA_af (v : Byte) : (s.setA v).af = setHi s.af v := rfl
@[simp] theorem setA_bc (v : Byte) : (s.setA v).bc = s.bc := rfl
@[simp] theorem setA_de (v : Byte) : (s.setA v).de = s.de := rfl
@[simp] theorem setA_hl (v : Byte) : (s.setA v).hl = s.hl := rfl
@[simp] theorem setA_af' (v : Byte) : (s.setA v).af' = s.af' := rfl
@[simp] theorem setA_bc' (v : Byte) : (s.setA v).bc' = s.bc' := rfl
@[simp] theorem setA_de' (v : Byte) : (s.setA v).de' = s.de' := rfl
@[simp] theorem setA_hl' (v : Byte) : (s.setA v).hl' = s.hl' := rfl
@[simp] theorem setA_ix (v : Byte) : (s.setA v).ix = s.ix := rfl
@[simp] theorem setA_iy (v : Byte) : (s.setA v).iy = s.iy := rfl
@[simp] theorem setA_sp (v : Byte) : (s.setA v).sp = s.sp := rfl
@[simp] theorem setA_pc (v : Byte) : (s.setA v).pc = s.pc := rfl
@[simp] theorem setA_i (v : Byte) : (s.setA v).i = s.i := rfl
@[simp] theorem setA_r (v : Byte) : (s.setA v).r = s.r := rfl
@[simp] theorem setA_iff1 (v : Byte) : (s.setA v).iff1 = s.iff1 := rfl
@[simp] theorem setA_iff2 (v : Byte) : (s.setA v).iff2 = s.iff2 := rfl
@[simp] theorem setA_im (v : Byte) : (s.setA v).im = s.im := rfl
@[simp] theorem setA_halted (v : Byte) : (s.setA v).halted = s.halted := rfl
@[simp] theorem setA_pfx (v : Byte) : (s.setA v).pfx = s.pfx := rfl
@[simp] theorem setA_istat (v : Byte) : (s.setA v).istat = s.istat := rfl
@[simp] theorem setA_cycles (v : Byte) : (s.setA v).cycles = s.cycles := rfl
@[simp] theorem setA_mem (v : Byte) : (s.setA v).mem = s.mem := rfl
@[simp] theorem setA_ioIn (v : Byte) : (s.setA v).ioIn = s.ioIn := rfl
@[simp] theorem setA_ioOut (v : Byte) : (s.setA v).ioOut = s.ioOut := rfl
@[simp] theorem setA_ioLog (v : Byte) : (s.setA v).ioLog = s.ioLog := rfl
@[simp] theorem setA_reqNmi (v : Byte) : (s.setA v).reqNmi = s.reqNmi := rfl
@[simp] theorem setA_reqMi (v : Byte) : (s.setA v).reqMi = s.reqMi := rfl
@[simp] theorem setA_ioCount (v : Byte) : (s.setA v).ioCount = s.ioCount := rfl
@[simp] theorem setA_draws (v : Byte) : (s.setA v).draws = s.draws := rfl
@[simp] theorem setA_target (v : Byte) : (s.setA v).target = s.target := rfl

/-! ## `setF` -/

@[simp] theorem setF_af (v : Byte) : (s.setF v).af = setLo s.af v := rfl
@[simp] theorem setF_bc (v : Byte) : (s.setF v).bc = s.bc := rfl
@[simp] theorem setF_de (v : Byte) : (s.setF v).de = s.de := rfl
@[simp] theorem setF_hl (v : Byte) : (s.setF v).hl = s.hl := rfl
@[simp] theorem setF_af' (v : Byte) : (s.setF v).af' = s.af' := rfl
@[simp] theorem setF_bc' (v : Byte) : (s.setF v).bc' = s.bc' := rfl
@[simp] theorem setF_de' (v : Byte) : (s.setF v).de' = s.de' := rfl
@[simp] theorem setF_hl' (v : Byte) : (s.setF v).hl' = s.hl' := rfl
@[simp] theorem setF_ix (v : Byte) : (s.setF v).ix = s.ix := rfl
@[simp] theorem setF_iy (v : Byte) : (s.setF v).iy = s.iy := rfl
@[simp] theorem setF_sp (v : Byte) : (s.setF v).sp = s.sp := rfl
@[simp] theorem setF_pc (v : Byte) : (s.setF v).pc = s.pc := rfl
@[simp] theorem setF_i (v : Byte) : (s.setF v).i = s.i := rfl
@[simp] theorem setF_r (v : Byte) : (s.setF v).r = s.r := rfl
@[simp] theorem setF_iff1 (v : Byte) : (s.setF v).iff1 = s.iff1 := rfl
@[simp] theorem setF_iff2 (v : Byte) : (s.setF v).iff2 = s.iff2 := rfl
@[simp] theorem setF_im (v : Byte) : (s.setF v).im = s.im := rfl
@[simp] theorem setF_halted (v : Byte) : (s.setF v).halted = s.halted := rfl
@[simp] theorem setF_pfx (v : Byte) : (s.setF v).pfx = s.pfx := rfl
@[simp] theorem setF_istat (v : Byte) : (s.setF v).istat = s.istat := rfl
@[simp] theorem setF_cycles (v : Byte) : (s.setF v).cycles = s.cycles := rfl
@[simp] theorem setF_mem (v : Byte) : (s.setF v).mem = s.mem := rfl
@[simp] theorem setF_ioIn (v : Byte) : (s.setF v).ioIn = s.ioIn := rfl
@[simp] theorem setF_ioOut (v : Byte) : (s.setF v).ioOut = s.ioOut := rfl
@[simp] theorem setF_ioLog (v : Byte) : (s.setF v).ioLog = s.ioLog := rfl
@[simp] theorem setF_reqNmi (v : Byte) : (s.setF v).reqNmi = s.reqNmi := rfl
@[simp] theorem setF_reqMi (v : Byte) : (s.setF v).reqMi = s.reqMi := rfl
@[simp] theorem setF_ioCount (v : Byte) : (s.setF v).ioCount = s.ioCount := rfl
@[simp] theorem setF_draws (v : Byte) : (s.setF v).draws = s.draws := rfl
@[simp] theorem setF_target (v : Byte) : (s.setF v).target = s.target := rfl

/-! ## `setB` -/

@[simp] theorem setB_af (v : Byte) : (s.setB v).af = s.af := rfl
@[simp] theorem setB_bc (v : Byte) : (s.setB v).bc = setHi s.bc v := rfl
@[simp] theorem setB_de (v : Byte) : (s.setB v).de = s.de := rfl
@[simp] theorem setB_hl (v : Byte) : (s.setB v).hl = s.hl := rfl
@[simp] theorem setB_af' (v : Byte) : (s.setB v).af' = s.af' := rfl
@[simp] theorem setB_bc' (v : Byte) : (s.setB v).bc' = s.bc' := rfl
@[simp] theorem setB_de' (v : Byte) : (s.setB v).de' = s.de' := rfl
@[simp] theorem setB_hl' (v : Byte) : (s.setB v).hl' = s.hl' := rfl
@[simp] theorem setB_ix (v : Byte) : (s.setB v).ix = s.ix := rfl
@[simp] theorem setB_iy (v : Byte) : (s.setB v).iy = s.iy := rfl
@[simp] theorem setB_sp (v : Byte) : (s.setB v).sp = s.sp := rfl
@[simp] theorem setB_pc (v : Byte) : (s.setB v).pc = s.pc := rfl
@[simp] theorem setB_i (v : Byte) : (s.setB v).i = s.i := rfl
@[simp] theorem setB_r (v : Byte) : (s.setB v).r = s.r := rfl
@[simp] theorem setB_iff1 (v : Byte) : (s.setB v).iff1 = s.iff1 := rfl
@[simp] theorem setB_iff2 (v : Byte) : (s.setB v).iff2 = s.iff2 := rfl
@[simp] theorem setB_im (v : Byte) : (s.setB v).im = s.im := rfl
@[simp] theorem setB_halted (v : Byte) : (s.setB v).halted = s.halted := rfl
@[simp] theorem setB_pfx (v : Byte) : (s.setB v).pfx = s.pfx := rfl
@[simp] theorem setB_istat (v : Byte) : (s.setB v).istat = s.istat := rfl
@[simp] theorem setB_cycles (v : Byte) : (s.setB v).cycles = s.cycles := rfl
@[simp] theorem setB_mem (v : Byte) : (s.setB v).mem = s.mem := rfl
@[simp] theorem setB_ioIn (v : Byte) : (s.setB v).ioIn = s.ioIn := rfl
@[simp] theorem setB_ioOut (v : Byte) : (s.setB v).ioOut = s.ioOut := rfl
@[simp] theorem setB_ioLog (v : Byte) : (s.setB v).ioLog = s.ioLog := rfl
@[simp] theorem setB_reqNmi (v : Byte) : (s.setB v).reqNmi = s.reqNmi := rfl
@[simp] theorem setB_reqMi (v : Byte) : (s.setB v).reqMi = s.reqMi := rfl
@[simp] theorem setB_ioCount (v : Byte) : (s.setB v).ioCount = s.ioCount := rfl
@[simp] theorem setB_draws (v : Byte) : (s.setB v).draws = s.draws := rfl
@[simp] theorem setB_target (v : Byte) : (s.setB v).target = s.target := rfl

/-! ## `setR` -/

@[simp] theorem setR_af' (x : Reg8) (v : Byte) : (s.setR x v).af' = s.af' := by cases x <;> rfl
@[simp] theorem setR_bc' (x : Reg8) (v : Byte) : (s.setR x v).bc' = s.bc' := by cases x <;> rfl
@[simp] theorem setR_de' (x : Reg8) (v : Byte) : (s.setR x v).de' = s.de' := by cases x <;> rfl
@[simp] theorem setR_hl' (x : Reg8) (v : Byte) : (s.setR x v).hl' = s.hl' := by cases x <;> rfl
@[simp] theorem setR_ix (x : Reg8) (v : Byte) : (s.setR x v).ix = s.ix := by cases x <;> rfl
@[simp] theorem setR_iy (x : Reg8) (v : Byte) : (s.setR x v).iy = s.iy := by cases x <;> rfl
@[simp] theorem setR_sp (x : Reg8) (v : Byte) : (s.setR x v).sp = s.sp := by cases x <;> rfl
@[simp] theorem setR_pc (x : Reg8) (v : Byte) : (s.setR x v).pc = s.pc := by cases x <;> rfl
@[simp] theorem setR_i (x : Reg8) (v : Byte) : (s.setR x v).i = s.i := by cases x <;> rfl
@[simp] theorem setR_r (x : Reg8) (v : Byte) : (s.setR x v).r = s.r := by cases x <;> rfl
@[simp] theorem setR_iff1 (x : Reg8) (v : Byte) : (s.setR x v).iff1 = s.iff1 := by cases x <;> rfl
@[simp] theorem setR_iff2 (x : Reg8) (v : Byte) : (s.setR x v).iff2 = s.iff2 := by cases x <;> rfl
@[simp] theorem setR_im (x : Reg8) (v : Byte) : (s.setR x v).im = s.im := by cases x <;> rfl
@[simp] theorem setR_halted (x : Reg8) (v : Byte) : (s.setR x v).halted = s.halted := by cases x <;> rfl
@[simp] theorem setR_pfx (x : Reg8) (v : Byte) : (s.setR x v).pfx = s.pfx := by cases x <;> rfl
@[simp] theorem setR_istat (x : Reg8) (v : Byte) : (s.setR x v).istat = s.istat := by cases x <;> rfl
@[simp] theorem setR_cycles (x : Reg8) (v : Byte) : (s.setR x v).cycles = s.cycles := by cases x <;> rfl
@[simp] theorem setR_mem (x : Reg8) (v : Byte) : (s.setR x v).mem = s.mem := by cases x <;> rfl
@[simp] theorem setR_ioIn (x : Reg8) (v : Byte) : (s.setR x v).ioIn = s.ioIn := by cases x <;> rfl
@[simp] theorem setR_ioOut (x : Reg8) (v : Byte) : (s.setR x v).ioOut = s.ioOut := by cases x <;> rfl
@[simp] theorem setR_ioLog (x : Reg8) (v : Byte) : (s.setR x v).ioLog = s.ioLog := by cases x <;> rfl
@[simp] theorem setR_reqNmi (x : Reg8) (v : Byte) : (s.setR x v).reqNmi = s.reqNmi := by cases x <;> rfl
@[simp] theorem setR_reqMi (x : Reg8) (v : Byte) : (s.setR x v).reqMi = s.reqMi := by cases x <;> rfl
@[simp] theorem setR_ioCount (x : Reg8) (v : Byte) : (s.setR x v).ioCount = s.ioCount := by cases x <;> rfl
@[simp] theorem setR_draws (x : Reg8) (v : Byte) : (s.setR x v).draws = s.draws := by cases x <;> rfl
@[simp] theorem setR_target (x : Reg8) (v : Byte) : (s.setR x v).target = s.target := by cases x <;> rfl

/-! ## `setSs` -/

@[simp] theorem setSs_af (x : Pair) (w : Word) : (s.setSs x w).af = s.af := by cases x <;> rfl
@[simp] theorem setSs_af' (x : Pair) (w : Word) : (s.setSs x w).af' = s.af' := by cases x <;> rfl
@[simp] theorem setSs_bc' (x : Pair) (w : Word) : (s.setSs x w).bc' = s.bc' := by cases x <;> rfl
@[simp] theorem setSs_de' (x : Pair) (w : Word) : (s.setSs x w).de' = s.de' := by cases x <;> rfl
@[simp] theorem setSs_hl' (x : Pair) (w : Word) : (s.setSs x w).hl' = s.hl' := by cases x <;> rfl
@[simp] theorem setSs_ix (x : Pair) (w : Word) : (s.setSs x w).ix = s.ix := by cases x <;> rfl
@[simp] theorem setSs_iy (x : Pair) (w : Word) : (s.setSs x w).iy = s.iy := by cases x <;> rfl
@[simp] theorem setSs_pc (x : Pair) (w : Word) : (s.setSs x w).pc = s.pc := by cases x <;> rfl
@[simp] theorem setSs_i (x : Pair) (w : Word) : (s.setSs x w).i = s.i := by cases x <;> rfl
@[simp] theorem setSs_r (x : Pair) (w : Word) : (s.setSs x w).r = s.r := by cases x <;> rfl
@[simp] theorem setSs_iff1 (x : Pair) (w : Word) : (s.setSs x w).iff1 = s.iff1 := by cases x <;> rfl
@[simp] theorem setSs_iff2 (x : Pair) (w : Word) : (s.setSs x w).iff2 = s.iff2 := by cases x <;> rfl
@[simp] theorem setSs_im (x : Pair) (w : Word) : (s.setSs x w).im = s.im := by cases x <;> rfl
@[simp] theorem setSs_halted (x : Pair) (w : Word) : (s.setSs x w).halted = s.halted := by cases x <;> rfl
@[simp] theorem setSs_pfx (x : Pair) (w : Word) : (s.setSs x w).pfx = s.pfx := by cases x <;> rfl
@[simp] theorem setSs_istat (x : Pair) (w : Word) : (s.setSs x w).istat = s.istat := by cases x <;> rfl
@[simp] theorem setSs_cycles (x : Pair) (w : Word) : (s.setSs x w).cycles = s.cycles := by cases x <;> rfl
@[simp] theorem setSs_mem (x : Pair) (w : Word) : (s.setSs x w).mem = s.mem := by cases x <;> rfl
@[simp] theorem setSs_ioIn (x : Pair) (w : Word) : (s.setSs x w).ioIn = s.ioIn := by cases x <;> rfl
@[simp] theorem setSs_ioOut (x : Pair) (w : Word) : (s.setSs x w).ioOut = s.ioOut := by cases x <;> rfl
@[simp] theorem setSs_ioLog (x : Pair) (w : Word) : (s.setSs x w).ioLog = s.ioLog := by cases x <;> rfl
@[simp] theorem setSs_reqNmi (x : Pair) (w : Word) : (s.setSs x w).reqNmi = s.reqNmi := by cases x <;> rfl
@[simp] theorem setSs_reqMi (x : Pair) (w : Word) : (s.setSs x w).reqMi = s.reqMi := by cases x <;> rfl
@[simp] theorem setSs_ioCount (x : Pair) (w : Word) : (s.setSs x w).ioCount = s.ioCount := by cases x <;> rfl
@[simp] theorem setSs_draws (x : Pair) (w : Word) : (s.setSs x w).draws = s.draws := by cases x <;> rfl
@[simp] theorem setSs_target (x : Pair) (w : Word) : (s.setSs x w).target = s.target := by cases x <;> rfl

/-! ## `setQq` -/

@[simp] theorem setQq_af' (x : PairQ) (w : Word) : (s.setQq x w).af' = s.af' := by cases x <;> rfl
@[simp] theorem setQq_bc' (x : PairQ) (w : Word) : (s.setQq x w).bc' = s.bc' := by cases x <;> rfl
@[simp] theorem setQq_de' (x : PairQ) (w : Word) : (s.setQq x w).de' = s.de' := by cases x <;> rfl
@[simp] theorem setQq_hl' (x : PairQ) (w : Word) : (s.setQq x w).hl' = s.hl' := by cases x <;> rfl
@[simp] theorem setQq_ix (x : PairQ) (w : Word) : (s.setQq x w).ix = s.ix := by cases x <;> rfl
@[simp] theorem setQq_iy (x : PairQ) (w : Word) : (s.setQq x w).iy = s.iy := by cases x <;> rfl
@[simp] theorem setQq_sp (x : PairQ) (w : Word) : (s.setQq x w).sp = s.sp := by cases x <;> rfl
@[simp] theorem setQq_pc (x : PairQ) (w : Word) : (s.setQq x w).pc = s.pc := by cases x <;> rfl
@[simp] theorem setQq_i (x : PairQ) (w : Word) : (s.setQq x w).i = s.i := by cases x <;> rfl
@[simp] theorem setQq_r (x : PairQ) (w : Word) : (s.setQq x w).r = s.r := by cases x <;> rfl
@[simp] theorem setQq_iff1 (x : PairQ) (w : Word) : (s.setQq x w).iff1 = s.iff1 := by cases x <;> rfl
@[simp] theorem setQq_iff2 (x : PairQ) (w : Word) : (s.setQq x w).iff2 = s.iff2 := by cases x <;> rfl
@[simp] theorem setQq_im (x : PairQ) (w : Word) : (s.setQq x w).im = s.im := by cases x <;> rfl
@[simp] theorem setQq_halted (x : PairQ) (w : Word) : (s.setQq x w).halted = s.halted := by cases x <;> rfl
@[simp] theorem setQq_pfx (x : PairQ) (w : Word) : (s.setQq x w).pfx = s.pfx := by cases x <;> rfl
@[simp] theorem setQq_istat (x : PairQ) (w : Word) : (s.setQq x w).istat = s.istat := by cases x <;> rfl
@[simp] theorem setQq_cycles (x : PairQ) (w : Word) : (s.setQq x w).cycles = s.cycles := by cases x <;> rfl
@[simp] theorem setQq_mem (x : PairQ) (w : Word) : (s.setQq x w).mem = s.mem := by cases x <;> rfl
@[simp] theorem setQq_ioIn (x : PairQ) (w : Word) : (s.setQq x w).ioIn = s.ioIn := by cases x <;> rfl
@[simp] theorem setQq_ioOut (x : PairQ) (w : Word) : (s.setQq x w).ioOut = s.ioOut := by cases x <;> rfl
@[simp] theorem setQq_ioLog (x : PairQ) (w : Word) : (s.setQq x w).ioLog = s.ioLog := by cases x <;> rfl
@[simp] theorem setQq_reqNmi (x : PairQ) (w : Word) : (s.setQq x w).reqNmi = s.reqNmi := by cases x <;> rfl
@[simp] theorem setQq_reqMi (x : PairQ) (w : Word) : (s.setQq x w).reqMi = s.reqMi := by cases x <;> rfl
@[simp] theorem setQq_ioCount (x : PairQ) (w : Word) : (s.setQq x w).ioCount = s.ioCount := by cases x <;> rfl
@[simp] theorem setQq_draws (x : PairQ) (w : Word) : (s.setQq x w).draws = s.draws := by cases x <;> rfl
@[simp] theorem setQq_target (x : PairQ) (w : Word) : (s.setQq x w).target = s.target := by cases x <;> rfl

/-! ## `setIi` -/

@[simp] theorem setIi_af (x : Idx) (w : Word) : (s.setIi x w).af = s.af := by cases x <;> rfl
@[simp] theorem setIi_bc (x : Idx) (w : Word) : (s.setIi x w).bc = s.bc := by cases x <;> rfl
@[simp] theorem setIi_de (x : Idx) (w : Word) : (s.setIi x w).de = s.de := by cases x <;> rfl
@[simp] theorem setIi_hl (x : Idx) (w : Word) : (s.setIi x w).hl = s.hl := by cases x <;> rfl
@[simp] theorem setIi_af' (x : Idx) (w : Word) : (s.setIi x w).af' = s.af' := by cases x <;> rfl
@[simp] theorem setIi_bc' (x : Idx) (w : Word) : (s.setIi x w).bc' = s.bc' := by cases x <;> rfl
@[simp] theorem setIi_de' (x : Idx) (w : Word) : (s.setIi x w).de' = s.de' := by cases x <;> rfl
@[simp] theorem setIi_hl' (x : Idx) (w : Word) : (s.setIi x w).hl' = s.hl' := by cases x <;> rfl
@[simp] theorem setIi_sp (x : Idx) (w : Word) : (s.setIi x w).sp = s.sp := by cases x <;> rfl
@[simp] theorem setIi_pc (x : Idx) (w : Word) : (s.setIi x w).pc = s.pc := by cases x <;> rfl
@[simp] theorem setIi_i (x : Idx) (w : Word) : (s.setIi x w).i = s.i := by cases x <;> rfl
@[simp] theorem setIi_r (x : Idx) (w : Word) : (s.setIi x w).r = s.r := by cases x <;> rfl
@[simp] theorem setIi_iff1 (x : Idx) (w : Word) : (s.setIi x w).iff1 = s.iff1 := by cases x <;> rfl
@[simp] theorem setIi_iff2 (x : Idx) (w : Word) : (s.setIi x w).iff2 = s.iff2 := by cases x <;> rfl
@[simp] theorem setIi_im (x : Idx) (w : Word) : (s.setIi x w).im = s.im := by cases x <;> rfl
@[simp] theorem setIi_halted (x : Idx) (w : Word) : (s.setIi x w).halted = s.halted := by cases x <;> rfl
@[simp] theorem setIi_pfx (x : Idx) (w : Word) : (s.setIi x w).pfx = s.pfx := by cases x <;> rfl
@[simp] theorem setIi_istat (x : Idx) (w : Word) : (s.setIi x w).istat = s.istat := by cases x <;> rfl
@[simp] theorem setIi_cycles (x : Idx) (w : Word) : (s.setIi x w).cycles = s.cycles := by cases x <;> rfl
@[simp] theorem setIi_mem (x : Idx) (w : Word) : (s.setIi x w).mem = s.mem := by cases x <;> rfl
@[simp] theorem setIi_ioIn (x : Idx) (w : Word) : (s.setIi x w).ioIn = s.ioIn := by cases x <;> rfl
@[simp] theorem setIi_ioOut (x : Idx) (w : Word) : (s.setIi x w).ioOut = s.ioOut := by cases x <;> rfl
@[simp] theorem setIi_ioLog (x : Idx) (w : Word) : (s.setIi x w).ioLog = s.ioLog := by cases x <;> rfl
@[simp] theorem setIi_reqNmi (x : Idx) (w : Word) : (s.setIi x w).reqNmi = s.reqNmi := by cases x <;> rfl
@[simp] theorem setIi_reqMi (x : Idx) (w : Word) : (s.setIi x w).reqMi = s.reqMi := by cases x <;> rfl
@[simp] theorem setIi_ioCount (x : Idx) (w : Word) : (s.setIi x w).ioCount = s.ioCount := by cases x <;> rfl
@[simp] theorem setIi_draws (x : Idx) (w : Word) : (s.setIi x w).draws = s.draws := by cases x <;> rfl
@[simp] theorem setIi_target (x : Idx) (w : Word) : (s.setIi x w).target = s.target := by cases x <;> rfl

/-! ## `setP` -/

@[simp] theorem setP_hl (ii : Idx) (x : RegP) (v : Byte) : (s.setP ii x v).hl = s.hl := by cases x <;> cases ii <;> rfl
@[simp] theorem setP_af' (ii : Idx) (x : RegP) (v : Byte) : (s.setP ii x v).af' = s.af' := by cases x <;> cases ii <;> rfl
@[simp] theorem setP_bc' (ii : Idx) (x : RegP) (v : Byte) : (s.setP ii x v).bc' = s.bc' := by cases x <;> cases ii <;> rfl
@[simp] theorem setP_de' (ii : Idx) (x : RegP) (v : Byte) : (s.setP ii x v).de' = s.de' := by cases x <;> cases ii <;> rfl
@[simp] theorem setP_hl' (ii : Idx) (x : RegP) (v : Byte) : (s.setP ii x v).hl' = s.hl' := by cases x <;> cases ii <;> rfl
@[simp] theorem setP_sp (ii : Idx) (x : RegP) (v : Byte) : (s.setP ii x v).sp = s.sp := by cases x <;> cases ii <;> rfl
@[simp] theorem setP_pc (ii : Idx) (x : RegP) (v : Byte) : (s.setP ii x v).pc = s.pc := by cases x <;> cases ii <;> rfl
@[simp] theorem setP_i (ii : Idx) (x : RegP) (v : Byte) : (s.setP ii x v).i = s.i := by cases x <;> cases ii <;> rfl
@[simp] theorem setP_r (ii : Idx) (x : RegP) (v : Byte) : (s.setP ii x v).r = s.r := by cases x <;> cases ii <;> rfl
@[simp] theorem setP_iff1 (ii : Idx) (x : RegP) (v : Byte) : (s.setP ii x v).iff1 = s.iff1 := by cases x <;> cases ii <;> rfl
@[simp] theorem setP_iff2 (ii : Idx) (x : RegP) (v : Byte) : (s.setP ii x v).iff2 = s.iff2 := by cases x <;> cases ii <;> rfl
@[simp] theorem setP_im (ii : Idx) (x : RegP) (v : Byte) : (s.setP ii x v).im = s.im := by cases x <;> cases ii <;> rfl
@[simp] theorem setP_halted (ii : Idx) (x : RegP) (v : Byte) : (s.setP ii x v).halted = s.halted := by cases x <;> cases ii <;> rfl
@[simp] theorem setP_pfx (ii : Idx) (x : RegP) (v : Byte) : (s.setP ii x v).pfx = s.pfx := by cases x <;> cases ii <;> rfl
@[simp] theorem setP_istat (ii : Idx) (x : RegP) (v : Byte) : (s.setP ii x v).istat = s.istat := by cases x <;> cases ii <;> rfl
@[simp] theorem setP_cycles (ii : Idx) (x : RegP) (v : Byte) : (s.setP ii x v).cycles = s.cycles := by cases x <;> cases ii <;> rfl
@[simp] theorem setP_mem (ii : Idx) (x : RegP) (v : Byte) : (s.setP ii x v).mem = s.mem := by cases x <;> cases ii <;> rfl
@[simp] theorem setP_ioIn (ii : Idx) (x : RegP) (v : Byte) : (s.setP ii x v).ioIn = s.ioIn := by cases x <;> cases ii <;> rfl
@[simp] theorem setP_ioOut (ii : Idx) (x : RegP) (v : Byte) : (s.setP ii x v).ioOut = s.ioOut := by cases x <;> cases ii <;> rfl
@[simp] theorem setP_ioLog (ii : Idx) (x : RegP) (v : Byte) : (s.setP ii x v).ioLog = s.ioLog := by cases x <;> cases ii <;> rfl
@[simp] theorem setP_reqNmi (ii : Idx) (x : RegP) (v : Byte) : (s.setP ii x v).reqNmi = s.reqNmi := by cases x <;> cases ii <;> rfl
@[simp] theorem setP_reqMi (ii : Idx) (x : RegP) (v : Byte) : (s.setP ii x v).reqMi = s.reqMi := by cases x <;> cases ii <;> rfl
@[simp] theorem setP_ioCount (ii : Idx) (x : RegP) (v : Byte) : (s.setP ii x v).ioCount = s.ioCount := by cases x <;> cases ii <;> rfl
@[simp] theorem setP_draws (ii : Idx) (x : RegP) (v : Byte) : (s.setP ii x v).draws = s.draws := by cases x <;> cases ii <;> rfl
@[simp] theorem setP_target (ii : Idx) (x : RegP) (v : Byte) : (s.setP ii x v).target = s.target := by cases x <;> cases ii <;> rfl

/-! ## `tick` -/

@[simp] theorem tick_af (n : Nat) : (s.tick n).af = s.af := rfl
@[simp] theorem tick_bc (n : Nat) : (s.tick n).bc = s.bc := rfl
@[simp] theorem tick_de (n : Nat) : (s.tick n).de = s.de := rfl
@[simp] theorem tick_hl (n : Nat) : (s.tick n).hl = s.hl := rfl
@[simp] theorem tick_af' (n : Nat) : (s.tick n).af' = s.af' := rfl
@[simp] theorem tick_bc' (n : Nat) : (s.tick n).bc' = s.bc' := rfl
@[simp] theorem tick_de' (n : Nat) : (s.tick n).de' = s.de' := rfl
@[simp] theorem tick_hl' (n : Nat) : (s.tick n).hl' = s.hl' := rfl
@[simp] theorem tick_ix (n : Nat) : (s.tick n).ix = s.ix := rfl
@[simp] theorem tick_iy (n : Nat) : (s.tick n).iy = s.iy := rfl
@[simp] theorem tick_sp (n : Nat) : (s.tick n).sp = s.sp := rfl
@[simp] theorem tick_pc (n : Nat) : (s.tick n).pc = s.pc := rfl
@[simp] theorem tick_i (n : Nat) : (s.tick n).i = s.i := rfl
@[simp] theorem tick_r (n : Nat) : (s.tick n).r = s.r := rfl
@[simp] theorem tick_iff1 (n : Nat) : (s.tick n).iff1 = s.iff1 := rfl
@[simp] theorem tick_iff2 (n : Nat) : (s.tick n).iff2 = s.iff2 := rfl
@[simp] theorem tick_im (n : Nat) : (s.tick n).im = s.im := rfl
@[simp] theorem tick_halted (n : Nat) : (s.tick n).halted = s.halted := rfl
@[simp] theorem tick_pfx (n : Nat) : (s.tick n).pfx = s.pfx := rfl
@[simp] theorem tick_istat (n : Nat) : (s.tick n).istat = s.istat := rfl
@[simp] theorem tick_cycles (n : Nat) : (s.tick n).cycles = s.cycles + n := rfl
@[simp] theorem tick_mem (n : Nat) : (s.tick n).mem = s.mem := rfl
@[simp] theorem tick_ioIn (n : Nat) : (s.tick n).ioIn = s.ioIn := rfl
@[simp] theorem tick_ioOut (n : Nat) : (s.tick n).ioOut = s.ioOut := rfl
@[simp] theorem tick_ioLog (n : Nat) : (s.tick n).ioLog = s.ioLog := rfl
@[simp] theorem tick_reqNmi (n : Nat) : (s.tick n).reqNmi = s.reqNmi := rfl
@[simp] theorem tick_reqMi (n : Nat) : (s.tick n).reqMi = s.reqMi := rfl
@[simp] theorem tick_ioCount (n : Nat) : (s.tick n).ioCount = s.ioCount := rfl
@[simp] theorem tick_draws (n : Nat) : (s.tick n).draws = s.draws := rfl
@[simp] theorem tick_target (n : Nat) : (s.tick n).target = s.target := rfl

/-! ## `tickPrefixed` -/

@[simp] theorem tickPrefixed_af (n : Nat) : (s.tickPrefixed n).af = s.af := rfl
@[simp] theorem tickPrefixed_bc (n : Nat) : (s.tickPrefixed n).bc = s.bc := rfl
@[simp] theorem tickPrefixed_de (n : Nat) : (s.tickPrefixed n).de = s.de := rfl
@[simp] theorem tickPrefixed_hl (n : Nat) : (s.tickPrefixed n).hl = s.hl := rfl
@[simp] theorem tickPrefixed_af' (n : Nat) : (s.tickPrefixed n).af' = s.af' := rfl
@[simp] theorem tickPrefixed_bc' (n : Nat) : (s.tickPrefixed n).bc' = s.bc' := rfl
@[simp] theorem tickPrefixed_de' (n : Nat) : (s.tickPrefixed n).de' = s.de' := rfl
@[simp] theorem tickPrefixed_hl' (n : Nat) : (s.tickPrefixed n).hl' = s.hl' := rfl
@[simp] theorem tickPrefixed_ix (n : Nat) : (s.tickPrefixed n).ix = s.ix := rfl
@[simp] theorem tickPrefixed_iy (n : Nat) : (s.tickPrefixed n).iy = s.iy := rfl
@[simp] theorem tickPrefixed_sp (n : Nat) : (s.tickPrefixed n).sp = s.sp := rfl
@[simp] theorem tickPrefixed_pc (n : Nat) : (s.tickPrefixed n).pc = s.pc := rfl
@[simp] theorem tickPrefixed_i (n : Nat) : (s.tickPrefixed n).i = s.i := rfl
@[simp] theorem tickPrefixed_r (n : Nat) : (s.tickPrefixed n).r = s.r := rfl
@[simp] theorem tickPrefixed_iff1 (n : Nat) : (s.tickPrefixed n).iff1 = s.iff1 := rfl
@[simp] theorem tickPrefixed_iff2 (n : Nat) : (s.tickPrefixed n).iff2 = s.iff2 := rfl
@[simp] theorem tickPrefixed_im (n : Nat) : (s.tickPrefixed n).im = s.im := rfl
@[simp] theorem tickPrefixed_halted (n : Nat) : (s.tickPrefixed n).halted = s.halted := rfl
@[simp] theorem tickPrefixed_pfx (n : Nat) : (s.tickPrefixed n).pfx = s.pfx := rfl
@[simp] theorem tickPrefixed_istat (n : Nat) : (s.tickPrefixed n).istat = s.istat := rfl
@[simp] theorem tickPrefixed_cycles (n : Nat) : (s.tickPrefixed n).cycles = s.cycles + (n - 4) := rfl
@[simp] theorem tickPrefixed_mem (n : Nat) : (s.tickPrefixed n).mem = s.mem := rfl
@[simp] theorem tickPrefixed_ioIn (n : Nat) : (s.tickPrefixed n).ioIn = s.ioIn := rfl
@[simp] theorem tickPrefixed_ioOut (n : Nat) : (s.tickPrefixed n).ioOut = s.ioOut := rfl
@[simp] theorem tickPrefixed_ioLog (n : Nat) : (s.tickPrefixed n).ioLog = s.ioLog := rfl
@[simp] theorem tickPrefixed_reqNmi (n : Nat) : (s.tickPrefixed n).reqNmi = s.reqNmi := rfl
@[simp] theorem tickPrefixed_reqMi (n : Nat) : (s.tickPrefixed n).reqMi = s.reqMi := rfl
@[simp] theorem tickPrefixed_ioCount (n : Nat) : (s.tickPrefixed n).ioCount = s.ioCount := rfl
@[simp] theorem tickPrefixed_draws (n : Nat) : (s.tickPrefixed n).draws = s.draws := rfl
@[simp] theorem tickPrefixed_target (n : Nat) : (s.tickPrefixed n).target = s.target := rfl

/-! ## `incR` -/

@[simp] theorem incR_af : (s.incR).af = s.af := rfl
@[simp] theorem incR_bc : (s.incR).bc = s.bc := rfl
@[simp] theorem incR_de : (s.incR).de = s.de := rfl
@[simp] theorem incR_hl : (s.incR).hl = s.hl := rfl
@[simp] theorem incR_af' : (s.incR).af' = s.af' := rfl
@[simp] theorem incR_bc' : (s.incR).bc' = s.bc' := rfl
@[simp] theorem incR_de' : (s.incR).de' = s.de' := rfl
@[simp] theorem incR_hl' : (s.incR).hl' = s.hl' := rfl
@[simp] theorem incR_ix : (s.incR).ix = s.ix := rfl
@[simp] theorem incR_iy : (s.incR).iy = s.iy := rfl
@[simp] theorem incR_sp : (s.incR).sp = s.sp := rfl
@[simp] theorem incR_pc : (s.incR).pc = s.pc := rfl
@[simp] theorem incR_i : (s.incR).i = s.i := rfl
@[simp] theorem incR_r : (s.incR).r = bumpR s.r := rfl
@[simp] theorem incR_iff1 : (s.incR).iff1 = s.iff1 := rfl
@[simp] theorem incR_iff2 : (s.incR).iff2 = s.iff2 := rfl
@[simp] theorem incR_im : (s.incR).im = s.im := rfl
@[simp] theorem incR_halted : (s.incR).halted = s.halted := rfl
@[simp] theorem incR_pfx : (s.incR).pfx = s.pfx := rfl
@[simp] theorem incR_istat : (s.incR).istat = s.istat := rfl
@[simp] theorem incR_cycles : (s.incR).cycles = s.cycles := rfl
@[simp] theorem incR_mem : (s.incR).mem = s.mem := rfl
@[simp] theorem incR_ioIn : (s.incR).ioIn = s.ioIn := rfl
@[simp] theorem incR_ioOut : (s.incR).ioOut = s.ioOut := rfl
@[simp] theorem incR_ioLog : (s.incR).ioLog = s.ioLog := rfl
@[simp] theorem incR_reqNmi : (s.incR).reqNmi = s.reqNmi := rfl
@[simp] theorem incR_reqMi : (s.incR).reqMi = s.reqMi := rfl
@[simp] theorem incR_ioCount : (s.incR).ioCount = s.ioCount := rfl
@[simp] theorem incR_draws : (s.incR).draws = s.draws := rfl
@[simp] theorem incR_target : (s.incR).target = s.target := rfl

/-! ## `push16` -/

@[simp] theorem push16_af (w : Word) : (s.push16 w).af = s.af := rfl
@[simp] theorem push16_bc (w : Word) : (s.push16 w).bc = s.bc := rfl
@[simp] theorem push16_de (w : Word) : (s.push16 w).de = s.de := rfl
@[simp] theorem push16_hl (w : Word) : (s.push16 w).hl = s.hl := rfl
@[simp] theorem push16_af' (w : Word) : (s.push16 w).af' = s.af' := rfl
@[simp] theorem push16_bc' (w : Word) : (s.push16 w).bc' = s.bc' := rfl
@[simp] theorem push16_de' (w : Word) : (s.push16 w).de' = s.de' := rfl
@[simp] theorem push16_hl' (w : Word) : (s.push16 w).hl' = s.hl' := rfl
@[simp] theorem push16_ix (w : Word) : (s.push16 w).ix = s.ix := rfl
@[simp] theorem push16_iy (w : Word) : (s.push16 w).iy = s.iy := rfl
@[simp] theorem push16_sp (w : Word) : (s.push16 w).sp = s.sp - 1#16 - 1#16 := rfl
@[simp] theorem push16_pc (w : Word) : (s.push16 w).pc = s.pc := rfl
@[simp] theorem push16_i (w : Word) : (s.push16 w).i = s.i := rfl
@[simp] theorem push16_r (w : Word) : (s.push16 w).r = s.r := rfl
@[simp] theorem push16_iff1 (w : Word) : (s.push16 w).iff1 = s.iff1 := rfl
@[simp] theorem push16_iff2 (w : Word) : (s.push16 w).iff2 = s.iff2 := rfl
@[simp] theorem push16_im (w : Word) : (s.push16 w).im = s.im := rfl
@[simp] theorem push16_halted (w : Word) : (s.push16 w).halted = s.halted := rfl
@[simp] theorem push16_pfx (w : Word) : (s.push16 w).pfx = s.pfx := rfl
@[simp] theorem push16_istat (w : Word) : (s.push16 w).istat = s.istat := rfl
@[simp] theorem push16_cycles (w : Word) : (s.push16 w).cycles = s.cycles := rfl
@[simp] theorem push16_mem (w : Word) : (s.push16 w).mem = (s.mem.write (s.sp - 1#16).toNat (hi w)).write (s.sp - 1#16 - 1#16).toNat (lo w) := rfl
@[simp] theorem push16_ioIn (w : Word) : (s.push16 w).ioIn = s.ioIn := rfl
@[simp] theorem push16_ioOut (w : Word) : (s.push16 w).ioOut = s.ioOut := rfl
@[simp] theorem push16_ioLog (w : Word) : (s.push16 w).ioLog = s.ioLog := rfl
@[simp] theorem push16_reqNmi (w : Word) : (s.push16 w).reqNmi = s.reqNmi := rfl
@[simp] theorem push16_reqMi (w : Word) : (s.push16 w).reqMi = s.reqMi := rfl
@[simp] theorem push16_ioCount (w : Word) : (s.push16 w).ioCount = s.ioCount := rfl
@[simp] theorem push16_draws (w : Word) : (s.push16 w).draws = s.draws := rfl
@[simp] theorem push16_target (w : Word) : (s.push16 w).target = s.target := rfl

/-! ## `pop16` -/

@[simp] theorem pop16_af : (s.pop16).af = s.af := rfl
@[simp] theorem pop16_bc : (s.pop16).bc = s.bc := rfl
@[simp] theorem pop16_de : (s.pop16).de = s.de := rfl
@[simp] theorem pop16_hl : (s.pop16).hl = s.hl := rfl
@[simp] theorem pop16_af' : (s.pop16).af' = s.af' := rfl
@[simp] theorem pop16_bc' : (s.pop16).bc' = s.bc' := rfl
@[simp] theorem pop16_de' : (s.pop16).de' = s.de' := rfl
@[simp] theorem pop16_hl' : (s.pop16).hl' = s.hl' := rfl
@[simp] theorem pop16_ix : (s.pop16).ix = s.ix := rfl
@[simp] theorem pop16_iy : (s.pop16).iy = s.iy := rfl
@[simp] theorem pop16_sp : (s.pop16).sp = s.sp + 1#16 + 1#16 := rfl
@[simp] theorem pop16_pc : (s.pop16).pc = s.pc := rfl
@[simp] theorem pop16_i : (s.pop16).i = s.i := rfl
@[simp] theorem pop16_r : (s.pop16).r = s.r := rfl
@[simp] theorem pop16_iff1 : (s.pop16).iff1 = s.iff1 := rfl
@[simp] theorem pop16_iff2 : (s.pop16).iff2 = s.iff2 := rfl
@[simp] theorem pop16_im : (s.pop16).im = s.im := rfl
@[simp] theorem pop16_halted : (s.pop16).halted = s.halted := rfl
@[simp] theorem pop16_pfx : (s.pop16).pfx = s.pfx := rfl
@[simp] theorem pop16_istat : (s.pop16).istat = s.istat := rfl
@[simp] theorem pop16_cycles : (s.pop16).cycles = s.cycles := rfl
@[simp] theorem pop16_mem : (s.pop16).mem = s.mem := rfl
@[simp] theorem pop16_ioIn : (s.pop16).ioIn = s.ioIn := rfl
@[simp] theorem pop16_ioOut : (s.pop16).ioOut = s.ioOut := rfl
@[simp] theorem pop16_ioLog : (s.pop16).ioLog = s.ioLog := rfl
@[simp] theorem pop16_reqNmi : (s.pop16).reqNmi = s.reqNmi := rfl
@[simp] theorem pop16_reqMi : (s.pop16).reqMi = s.reqMi := rfl
@[simp] theorem pop16_ioCount : (s.pop16).ioCount = s.ioCount := rfl
@[simp] theorem pop16_draws : (s.pop16).draws = s.draws := rfl
@[simp] theorem pop16_target : (s.pop16).target = s.target := rfl

/-! ## `ioAccess` -/

@[simp] theorem ioAccess_af (ev : IoEvent) (e : IoEffect) : (s.ioAccess ev e).af = s.af := rfl
@[simp] theorem ioAccess_bc (ev : IoEvent) (e : IoEffect) : (s.ioAccess ev e).bc = s.bc := rfl
@[simp] theorem ioAccess_de (ev : IoEvent) (e : IoEffect) : (s.ioAccess ev e).de = s.de := rfl
@[simp] theorem ioAccess_hl (ev : IoEvent) (e : IoEffect) : (s.ioAccess ev e).hl = s.hl := rfl
@[simp] theorem ioAccess_af' (ev : IoEvent) (e : IoEffect) : (s.ioAccess ev e).af' = s.af' := rfl
@[simp] theorem ioAccess_bc' (ev : IoEvent) (e : IoEffect) : (s.ioAccess ev e).bc' = s.bc' := rfl
@[simp] theorem ioAccess_de' (ev : IoEvent) (e : IoEffect) : (s.ioAccess ev e).de' = s.de' := rfl
@[simp] theorem ioAccess_hl' (ev : IoEvent) (e : IoEffect) : (s.ioAccess ev e).hl' = s.hl' := rfl
@[simp] theorem ioAccess_ix (ev : IoEvent) (e : IoEffect) : (s.ioAccess ev e).ix = s.ix := rfl
@[simp] theorem ioAccess_iy (ev : IoEvent) (e : IoEffect) : (s.ioAccess ev e).iy = s.iy := rfl
@[simp] theorem ioAccess_sp (ev : IoEvent) (e : IoEffect) : (s.ioAccess ev e).sp = s.sp := rfl
@[simp] theorem ioAccess_pc (ev : IoEvent) (e : IoEffect) : (s.ioAccess ev e).pc = s.pc := rfl
@[simp] theorem ioAccess_i (ev : IoEvent) (e : IoEffect) : (s.ioAccess ev e).i = s.i := rfl
@[simp] theorem ioAccess_r (ev : IoEvent) (e : IoEffect) : (s.ioAccess ev e).r = s.r := rfl
@[simp] theorem ioAccess_iff1 (ev : IoEvent) (e : IoEffect) : (s.ioAccess ev e).iff1 = s.iff1 := rfl
@[simp] theorem ioAccess_iff2 (ev : IoEvent) (e : IoEffect) : (s.ioAccess ev e).iff2 = s.iff2 := rfl
@[simp] theorem ioAccess_im (ev : IoEvent) (e : IoEffect) : (s.ioAccess ev e).im = s.im := rfl
@[simp] theorem ioAccess_halted (ev : IoEvent) (e : IoEffect) : (s.ioAccess ev e).halted = s.halted := rfl
@[simp] theorem ioAccess_pfx (ev : IoEvent) (e : IoEffect) : (s.ioAccess ev e).pfx = s.pfx := rfl
@[simp] theorem ioAccess_istat (ev : IoEvent) (e : IoEffect) : (s.ioAccess ev e).istat = .check := rfl
@[simp] theorem ioAccess_cycles (ev : IoEvent) (e : IoEffect) : (s.ioAccess ev e).cycles = s.cycles := rfl
@[simp] theorem ioAccess_mem (ev : IoEvent) (e : IoEffect) : (s.ioAccess ev e).mem = s.mem.writeAll e.stores := rfl
@[simp] theorem ioAccess_ioIn (ev : IoEvent) (e : IoEffect) : (s.ioAccess ev e).ioIn = s.ioIn := rfl
@[simp] theorem ioAccess_ioOut (ev : IoEvent) (e : IoEffect) : (s.ioAccess ev e).ioOut = s.ioOut := rfl
@[simp] theorem ioAccess_ioLog (ev : IoEvent) (e : IoEffect) : (s.ioAccess ev e).ioLog = s.ioLog ++ [ev] := rfl
@[simp] theorem ioAccess_reqNmi (ev : IoEvent) (e : IoEffect) : (s.ioAccess ev e).reqNmi = (s.reqNmi || e.latchNmi) := rfl
@[simp] theorem ioAccess_reqMi (ev : IoEvent) (e : IoEffect) : (s.ioAccess ev e).reqMi = moveMi s.reqMi e.mi := rfl
@[simp] theorem ioAccess_ioCount (ev : IoEvent) (e : IoEffect) : (s.ioAccess ev e).ioCount = s.ioCount + 1 := rfl
@[simp] theorem ioAccess_draws (ev : IoEvent) (e : IoEffect) : (s.ioAccess ev e).draws = s.draws := rfl
@[simp] theorem ioAccess_target (ev : IoEvent) (e : IoEffect) : (s.ioAccess ev e).target = s.target := rfl

/-! ## `ioRead` -/

@[simp] theorem ioRead_af (p : Word) : (s.ioRead p).af = s.af := rfl
@[simp] theorem ioRead_bc (p : Word) : (s.ioRead p).bc = s.bc := rfl
@[simp] theorem ioRead_de (p : Word) : (s.ioRead p).de = s.de := rfl
@[simp] theorem ioRead_hl (p : Word) : (s.ioRead p).hl = s.hl := rfl
@[simp] theorem ioRead_af' (p : Word) : (s.ioRead p).af' = s.af' := rfl
@[simp] theorem ioRead_bc' (p : Word) : (s.ioRead p).bc' = s.bc' := rfl
@[simp] theorem ioRead_de' (p : Word) : (s.ioRead p).de' = s.de' := rfl
@[simp] theorem ioRead_hl' (p : Word) : (s.ioRead p).hl' = s.hl' := rfl
@[simp] theorem ioRead_ix (p : Word) : (s.ioRead p).ix = s.ix := rfl
@[simp] theorem ioRead_iy (p : Word) : (s.ioRead p).iy = s.iy := rfl
@[simp] theorem ioRead_sp (p : Word) : (s.ioRead p).sp = s.sp := rfl
@[simp] theorem ioRead_pc (p : Word) : (s.ioRead p).pc = s.pc := rfl
@[simp] theorem ioRead_i (p : Word) : (s.ioRead p).i = s.i := rfl
@[simp] theorem ioRead_r (p : Word) : (s.ioRead p).r = s.r := rfl
@[simp] theorem ioRead_iff1 (p : Word) : (s.ioRead p).iff1 = s.iff1 := rfl
@[simp] theorem ioRead_iff2 (p : Word) : (s.ioRead p).iff2 = s.iff2 := rfl
@[simp] theorem ioRead_im (p : Word) : (s.ioRead p).im = s.im := rfl
@[simp] theorem ioRead_halted (p : Word) : (s.ioRead p).halted = s.halted := rfl
@[simp] theorem ioRead_pfx (p : Word) : (s.ioRead p).pfx = s.pfx := rfl
@[simp] theorem ioRead_istat (p : Word) : (s.ioRead p).istat = .check := rfl
@[simp] theorem ioRead_cycles (p : Word) : (s.ioRead p).cycles = s.cycles := rfl
@[simp] theorem ioRead_mem (p : Word) : (s.ioRead p).mem = s.mem.writeAll (s.readReply p).2.stores := rfl
@[simp] theorem ioRead_ioIn (p : Word) : (s.ioRead p).ioIn = s.ioIn.eraseP (readServes p) := rfl
@[simp] theorem ioRead_ioOut (p : Word) : (s.ioRead p).ioOut = s.ioOut := rfl
@[simp] theorem ioRead_ioLog (p : Word) : (s.ioRead p).ioLog = s.ioLog ++ [.read p (s.ioByte p)] := rfl
@[simp] theorem ioRead_reqNmi (p : Word) : (s.ioRead p).reqNmi = (s.reqNmi || (s.readReply p).2.latchNmi) := rfl
@[simp] theorem ioRead_reqMi (p : Word) : (s.ioRead p).reqMi = moveMi s.reqMi (s.readReply p).2.mi := rfl
@[simp] theorem ioRead_ioCount (p : Word) : (s.ioRead p).ioCount = s.ioCount + 1 := rfl
@[simp] theorem ioRead_draws (p : Word) : (s.ioRead p).draws = s.draws := rfl
@[simp] theorem ioRead_target (p : Word) : (s.ioRead p).target = s.target := rfl

/-! ## `ioWrite` -/

@[simp] theorem ioWrite_af (p : Word) (v : Byte) : (s.ioWrite p v).af = s.af := rfl
@[simp] theorem ioWrite_bc (p : Word) (v : Byte) : (s.ioWrite p v).bc = s.bc := rfl
@[simp] theorem ioWrite_de (p : Word) (v : Byte) : (s.ioWrite p v).de = s.de := rfl
@[simp] theorem ioWrite_hl (p : Word) (v : Byte) : (s.ioWrite p v).hl = s.hl := rfl
@[simp] theorem ioWrite_af' (p : Word) (v : Byte) : (s.ioWrite p v).af' = s.af' := rfl
@[simp] theorem ioWrite_bc' (p : Word) (v : Byte) : (s.ioWrite p v).bc' = s.bc' := rfl
@[simp] theorem ioWrite_de' (p : Word) (v : Byte) : (s.ioWrite p v).de' = s.de' := rfl
@[simp] theorem ioWrite_hl' (p : Word) (v : Byte) : (s.ioWrite p v).hl' = s.hl' := rfl
@[simp] theorem ioWrite_ix (p : Word) (v : Byte) : (s.ioWrite p v).ix = s.ix := rfl
@[simp] theorem ioWrite_iy (p : Word) (v : Byte) : (s.ioWrite p v).iy = s.iy := rfl
@[simp] theorem ioWrite_sp (p : Word) (v : Byte) : (s.ioWrite p v).sp = s.sp := rfl
@[simp] theorem ioWrite_pc (p : Word) (v : Byte) : (s.ioWrite p v).pc = s.pc := rfl
@[simp] theorem ioWrite_i (p : Word) (v : Byte) : (s.ioWrite p v).i = s.i := rfl
@[simp] theorem ioWrite_r (p : Word) (v : Byte) : (s.ioWrite p v).r = s.r := rfl
@[simp] theorem ioWrite_iff1 (p : Word) (v : Byte) : (s.ioWrite p v).iff1 = s.iff1 := rfl
@[simp] theorem ioWrite_iff2 (p : Word) (v : Byte) : (s.ioWrite p v).iff2 = s.iff2 := rfl
@[simp] theorem ioWrite_im (p : Word) (v : Byte) : (s.ioWrite p v).im = s.im := rfl
@[simp] theorem ioWrite_halted (p : Word) (v : Byte) : (s.ioWrite p v).halted = s.halted := rfl
@[simp] theorem ioWrite_pfx (p : Word) (v : Byte) : (s.ioWrite p v).pfx = s.pfx := rfl
@[simp] theorem ioWrite_istat (p : Word) (v : Byte) : (s.ioWrite p v).istat = .check := rfl
@[simp] theorem ioWrite_cycles (p : Word) (v : Byte) : (s.ioWrite p v).cycles = s.cycles := rfl
@[simp] theorem ioWrite_mem (p : Word) (v : Byte) : (s.ioWrite p v).mem = s.mem.writeAll (s.writeReply p v).stores := rfl
@[simp] theorem ioWrite_ioIn (p : Word) (v : Byte) : (s.ioWrite p v).ioIn = s.ioIn := rfl
@[simp] theorem ioWrite_ioOut (p : Word) (v : Byte) : (s.ioWrite p v).ioOut = s.ioOut.eraseP (writeServes p v) := rfl
@[simp] theorem ioWrite_ioLog (p : Word) (v : Byte) : (s.ioWrite p v).ioLog = s.ioLog ++ [.write p v] := rfl
@[simp] theorem ioWrite_reqNmi (p : Word) (v : Byte) : (s.ioWrite p v).reqNmi = (s.reqNmi || (s.writeReply p v).latchNmi) := rfl
@[simp] theorem ioWrite_reqMi (p : Word) (v : Byte) : (s.ioWrite p v).reqMi = moveMi s.reqMi (s.writeReply p v).mi := rfl
@[simp] theorem ioWrite_ioCount (p : Word) (v : Byte) : (s.ioWrite p v).ioCount = s.ioCount + 1 := rfl
@[simp] theorem ioWrite_draws (p : Word) (v : Byte) : (s.ioWrite p v).draws = s.draws := rfl
@[simp] theorem ioWrite_target (p : Word) (v : Byte) : (s.ioWrite p v).target = s.target := rfl

end Sys2Proof.Machine.State
end

