-- ==== Sys2Proof/Laws/Registers.lean ====
section
/-! SUPPORT. Halves and pairs (spec 10_state.md R11), and reading a register back after a write. -/

namespace Sys2Proof

theorem hi_toNat (w : Word) : (hi w).toNat = w.toNat / 256 := by
  have := w.isLt
  simp only [hi, BitVec.extractLsb'_toNat, Nat.shiftRight_eq_div_pow]; omega

theorem lo_toNat (w : Word) : (lo w).toNat = w.toNat % 256 := by
  simp [lo]

theorem join_toNat (h l : Byte) : (join h l).toNat = h.toNat * 256 + l.toNat := by
  have := l.isLt
  rw [join, BitVec.toNat_append, ← Nat.shiftLeft_add_eq_or_of_lt (by omega), Nat.shiftLeft_eq]

@[simp] theorem hi_join (h l : Byte) : hi (join h l) = h := by
  have := l.isLt
  apply BitVec.eq_of_toNat_eq; rw [hi_toNat, join_toNat]; omega

@[simp] theorem lo_join (h l : Byte) : lo (join h l) = l := by
  have := l.isLt
  apply BitVec.eq_of_toNat_eq; rw [lo_toNat, join_toNat]; omega

@[simp] theorem join_hi_lo (w : Word) : join (hi w) (lo w) = w := by
  apply BitVec.eq_of_toNat_eq; rw [join_toNat, hi_toNat, lo_toNat]; omega

theorem join_ext {v w : Word} (h : hi v = hi w) (l : lo v = lo w) : v = w := by
  rw [← join_hi_lo v, ← join_hi_lo w, h, l]

@[simp] theorem hi_setHi (w : Word) (v : Byte) : hi (setHi w v) = v := by simp [setHi]
@[simp] theorem lo_setHi (w : Word) (v : Byte) : lo (setHi w v) = lo w := by simp [setHi]
@[simp] theorem hi_setLo (w : Word) (v : Byte) : hi (setLo w v) = hi w := by simp [setLo]
@[simp] theorem lo_setLo (w : Word) (v : Byte) : lo (setLo w v) = v := by simp [setLo]

/-! ## Bits of a half -/

theorem getLsbD_hi (w : Word) {k : Nat} (hk : k < 8) : (hi w).getLsbD k = w.getLsbD (8 + k) := by
  simp [hi, hk]

theorem getLsbD_lo (w : Word) {k : Nat} (hk : k < 8) : (lo w).getLsbD k = w.getLsbD k := by
  simp [lo, hk]

namespace Machine.State

variable (s : State)

/-! ## Reading back -/

@[simp] theorem getR_setR_same (r : Reg8) (v : Byte) : (s.setR r v).getR r = v := by cases r <;> simp [setR, getR]

theorem getR_setR_ne {r x : Reg8} (h : x ≠ r) (v : Byte) : (s.setR r v).getR x = s.getR x := by
  cases r <;> cases x <;> first | exact absurd rfl h | simp [setR, getR]

/-- No register name is `F`. -/
@[simp] theorem getF_setR (r : Reg8) (v : Byte) : (s.setR r v).getF = s.getF := by cases r <;> simp [setR, getF]

@[simp] theorem getA_setF (v : Byte) : (s.setF v).getA = s.getA := by simp [setF, getA]
@[simp] theorem getF_setF (v : Byte) : (s.setF v).getF = v := by simp [setF, getF]
@[simp] theorem getR_setF (r : Reg8) (v : Byte) : (s.setF v).getR r = s.getR r := by cases r <;> simp [setF, getR]

@[simp] theorem getSs_setSs_same (p : Pair) (w : Word) : (s.setSs p w).getSs p = w := by cases p <;> rfl

theorem getSs_setSs_ne {p x : Pair} (h : x ≠ p) (w : Word) : (s.setSs p w).getSs x = s.getSs x := by
  cases p <;> cases x <;> first | exact absurd rfl h | rfl

@[simp] theorem getQq_setQq_same (p : PairQ) (w : Word) : (s.setQq p w).getQq p = w := by cases p <;> rfl

theorem getQq_setQq_ne {p x : PairQ} (h : x ≠ p) (w : Word) : (s.setQq p w).getQq x = s.getQq x := by
  cases p <;> cases x <;> first | exact absurd rfl h | rfl

@[simp] theorem getIi_setIi_same (p : Idx) (w : Word) : (s.setIi p w).getIi p = w := by cases p <;> rfl

theorem getIi_setIi_ne {p x : Idx} (h : x ≠ p) (w : Word) : (s.setIi p w).getIi x = s.getIi x := by
  cases p <;> cases x <;> first | exact absurd rfl h | rfl

@[simp] theorem getP_setP_same (ii : Idx) (p : RegP) (v : Byte) : (s.setP ii p v).getP ii p = v := by
  cases p <;> cases ii <;> simp [setP, getP, setIi, getIi]

theorem getP_setP_ne (ii : Idx) {p x : RegP} (h : x ≠ p) (v : Byte) : (s.setP ii p v).getP ii x = s.getP ii x := by
  cases p <;> cases x <;> first | exact absurd rfl h | (cases ii <;> simp [setP, getP, setIi, getIi])

end Machine.State

end Sys2Proof
end

