-- ==== Sys2Proof/Laws/Flags.lean ====
section
/-! SUPPORT. The bits of a packed flag byte, and what the arithmetic cores, the rotates and the bit operations compute, in
the words of Safety.lean. -/

namespace Sys2Proof.Machine

/-! ## A packed flag byte (spec 10_state.md R12) -/

/-- Each bit of a packed flag byte is the bit packed. -/
theorem packF_bits (s z y h x p n c : Bool) : FlagBits (packF s z y h x p n c) s z y h x p n c := by
  revert s z y h x p n c; unfold FlagBits; decide

theorem FlagBits.congr {f : Byte} {s z y h x p n c s' z' y' h' x' p' n' c' : Bool} (k : FlagBits f s z y h x p n c)
    (e1 : s = s') (e2 : z = z') (e3 : y = y') (e4 : h = h') (e5 : x = x') (e6 : p = p') (e7 : n = n') (e8 : c = c') :
    FlagBits f s' z' y' h' x' p' n' c' := by
  subst e1 e2 e3 e4 e5 e6 e7 e8; exact k

theorem parity_eq_evenOnes : ∀ v : Byte, parity v = evenOnes v := by decide

/-! ## Bits and signs as numbers -/

theorem getLsbD_eq_div (x : Byte) (k : Nat) : x.getLsbD k = decide (x.toNat / 2 ^ k % 2 = 1) := by
  rw [BitVec.getLsbD, Nat.testBit_eq_decide_div_mod_eq]

theorem byte_toInt (x : Byte) : x.toInt = if x.toNat < 128 then (x.toNat : Int) else x.toNat - 256 := by
  rw [BitVec.toInt_eq_toNat_cond]; have := x.isLt; split <;> split <;> omega

/-! ## The cores (42_arith8.md R181) -/

theorem add8_toNat (a b : Byte) (c : Bool) : (add8 a b c).r.toNat = (a.toNat + b.toNat + c.toNat) % 256 := by
  simp [add8]

theorem add8_r (a b : Byte) (c : Bool) : (add8 a b c).r = a + b + BitVec.ofNat 8 c.toNat := by
  apply BitVec.eq_of_toNat_eq; simp [add8, BitVec.toNat_add]

theorem sub8_toNat (a b : Byte) (c : Bool) : (sub8 a b c).r.toNat = (a.toNat + 512 - b.toNat - c.toNat) % 256 := by
  simp only [sub8, BitVec.toNat_ofInt]
  have := b.isLt; have := a.isLt
  cases c <;> simp <;> omega

theorem sub8_r (a b : Byte) (c : Bool) : (sub8 a b c).r = a - b - BitVec.ofNat 8 c.toNat := by
  have := b.isLt; have := a.isLt
  apply BitVec.eq_of_toNat_eq; rw [sub8_toNat]
  cases c <;> simp [BitVec.toNat_sub] <;> omega

theorem add16_eq (a b : Word) (c : Bool) : add16 a b c = a + b + BitVec.ofNat 16 c.toNat := by
  apply BitVec.eq_of_toNat_eq; simp [add16, BitVec.toNat_add]

theorem sub16_eq (a b : Word) (c : Bool) : sub16 a b c = a - b - BitVec.ofNat 16 c.toNat := by
  have := b.isLt; have := a.isLt
  apply BitVec.eq_of_toNat_eq
  rw [sub16, BitVec.toNat_ofInt]
  cases c <;> simp [BitVec.toNat_sub] <;> omega

/-! ## Rotates and shifts (44_rotate_shift.md R246 to R253): the result as a bit string -/

theorem rotRlc_eq : ∀ (v : Byte) (c : Bool), rotRlc v c = (v.rotateLeft 1, v.getLsbD 7) := by decide
theorem rotRrc_eq : ∀ (v : Byte) (c : Bool), rotRrc v c = (v.rotateRight 1, v.getLsbD 0) := by decide
theorem rotRl_eq : ∀ (v : Byte) (c : Bool), rotRl v c = (v.extractLsb' 0 7 ++ BitVec.ofBool c, v.getLsbD 7) := by decide
theorem rotRr_eq : ∀ (v : Byte) (c : Bool), rotRr v c = (BitVec.ofBool c ++ v.extractLsb' 1 7, v.getLsbD 0) := by decide
theorem rotSla_eq : ∀ (v : Byte) (c : Bool), rotSla v c = (v.extractLsb' 0 7 ++ 0#1, v.getLsbD 7) := by decide
theorem rotSra_eq : ∀ (v : Byte) (c : Bool), rotSra v c = (v.sshiftRight 1, v.getLsbD 0) := by decide
theorem rotSll_eq : ∀ (v : Byte) (c : Bool), rotSll v c = (v.extractLsb' 0 7 ++ 1#1, v.getLsbD 7) := by decide
theorem rotSrl_eq : ∀ (v : Byte) (c : Bool), rotSrl v c = (0#1 ++ v.extractLsb' 1 7, v.getLsbD 0) := by decide

/-! ## Set and reset (45_bit.md): exactly one bit is written -/

theorem bitSet_bit (b : BitVec 3) (v : Byte) {k : Nat} (hk : k < 8) :
    (bitSet b v).getLsbD k = if k = b.toNat then true else v.getLsbD k := by
  simp only [bitSet, bitMask, BitVec.getLsbD_or, BitVec.getLsbD_shiftLeft, BitVec.getLsbD_one]
  split
  · subst k; simp [hk]
  · have : ¬ (¬ k < b.toNat ∧ k - b.toNat = 0) := by omega
    by_cases h : k < b.toNat <;> simp_all

theorem bitRes_bit (b : BitVec 3) (v : Byte) {k : Nat} (hk : k < 8) :
    (bitRes b v).getLsbD k = if k = b.toNat then false else v.getLsbD k := by
  simp only [bitRes, bitMask, BitVec.getLsbD_and, BitVec.getLsbD_not, BitVec.getLsbD_shiftLeft, BitVec.getLsbD_one]
  split
  · subst k; simp [hk]
  · have : ¬ (¬ k < b.toNat ∧ k - b.toNat = 0) := by omega
    by_cases h : k < b.toNat <;> simp_all

end Sys2Proof.Machine
end

