-- ==== Sys2Proof/Laws/Alu.lean ====
section
/-! SUPPORT. What each shared accumulator operation, rotate and 8-bit update does, once, in the words of Safety.lean: the
meanings of all operand forms cite these. -/

namespace Sys2Proof.Machine

variable (n : Nat) (v : Byte) (s : State)

theorem sameMem_refl : SameMem s s := fun _ => rfl

/-- Only memory decides what a claim about memory says. -/
theorem SameMem.of_mem {s t : State} (h : t.mem = s.mem) : SameMem s t := fun a => by simp [State.read8, h]

/-! ## The eight accumulator operations (42_arith8.md R182 to R189) -/

theorem getA_join (a f : Byte) (m : Nat) : State.getA (State.tick { s with af := join a f } m) = a := hi_join a f

theorem getF_join (a f : Byte) (m : Nat) : State.getF (State.tick { s with af := join a f } m) = f := lo_join a f

theorem addCore (c : Bool) : AddsToA n v c s
    (State.tick { s with af := join (add8 s.getA v c).r (aluFlags (add8 s.getA v c) (add8 s.getA v c).r) } n) := by
  refine ⟨⟨rfl, fun _ => rfl⟩, ?_, ?_⟩
  · rw [getA_join, add8_toNat]
  · rw [getA_join, getF_join]; exact packF_bits ..

theorem subCore (c : Bool) : SubsFromA n v c s
    (State.tick { s with af := join (sub8 s.getA v c).r (aluFlags (sub8 s.getA v c) (sub8 s.getA v c).r) } n) := by
  refine ⟨⟨rfl, fun _ => rfl⟩, ?_, ?_⟩
  · rw [getA_join, sub8_r]
  · rw [getA_join, getF_join]
    refine (packF_bits ..).congr rfl rfl rfl ?_ rfl rfl rfl ?_ <;> simp only [sub8, decide_eq_decide] <;> omega

theorem aluAdd_spec : AddsToA n v false s ((aluAdd v s).tick n) := addCore n v s false

theorem aluAdc_spec : AddsToA n v (s.getF.getLsbD 0) s ((aluAdc v s).tick n) := addCore n v s _

theorem aluSub_spec : SubsFromA n v false s ((aluSub v s).tick n) := subCore n v s false

theorem aluSbc_spec : SubsFromA n v (s.getF.getLsbD 0) s ((aluSbc v s).tick n) := subCore n v s _

theorem logicCore (r : Byte) (h : Bool) :
    LogicToA n r h s (State.tick { s with af := join r (logicFlags r h) } n) := by
  refine ⟨⟨rfl, fun _ => rfl⟩, getA_join .., ?_⟩
  rw [getF_join]; exact (packF_bits ..).congr rfl rfl rfl rfl rfl (parity_eq_evenOnes r) rfl rfl

theorem aluAnd_spec : LogicToA n (s.getA &&& v) true s ((aluAnd v s).tick n) := logicCore n s _ _

theorem aluXor_spec : LogicToA n (s.getA ^^^ v) false s ((aluXor v s).tick n) := logicCore n s _ _

theorem aluOr_spec : LogicToA n (s.getA ||| v) false s ((aluOr v s).tick n) := logicCore n s _ _

theorem aluCp_spec : ComparesWithA n v s ((aluCp v s).tick n) := by
  have hr : (sub8 s.getA v false).r = s.getA - v := by rw [sub8_r]; simp
  refine ⟨⟨rfl, fun _ => rfl⟩, getA_join .., ?_⟩
  rw [aluCp, getF_join]
  refine (packF_bits ..).congr ?_ ?_ rfl ?_ rfl ?_ rfl ?_
  · rw [← hr]; rfl
  · have : (sub8 s.getA v false).z = decide ((sub8 s.getA v false).r = 0#8) := rfl
    rw [this, hr, decide_eq_decide, ← BitVec.toNat_inj, ← BitVec.toNat_inj]
    have := s.getA.isLt; have := v.isLt
    simp [BitVec.toNat_sub]; omega
  all_goals simp [sub8]
  · omega

/-! ## Increment, decrement, rotates -/

theorem incFlags_spec (f : Byte) :
    FlagsOf (v + 1#8) (incFlags v (v + 1#8) f) (decide (v.toNat % 16 = 15)) (decide (v = 0x7F#8)) false (f.getLsbD 0) :=
  (packF_bits ..).congr rfl rfl rfl (by revert v; decide) rfl rfl rfl rfl

theorem decFlags_spec (f : Byte) :
    FlagsOf (v - 1#8) (decFlags v (v - 1#8) f) (decide (v.toNat % 16 = 0)) (decide (v = 0x80#8)) true (f.getLsbD 0) :=
  (packF_bits ..).congr rfl rfl rfl (by revert v; decide) rfl rfl rfl rfl

theorem rotFlags_spec (c : Bool) : FlagsOf v (rotFlags v c) false (evenOnes v) false c :=
  (packF_bits ..).congr rfl rfl rfl rfl rfl (parity_eq_evenOnes v) rfl rfl

theorem inFlags_spec (f : Byte) : FlagsOf v (inFlags v f) false (evenOnes v) false (f.getLsbD 0) :=
  (packF_bits ..).congr rfl rfl rfl rfl rfl (parity_eq_evenOnes v) rfl rfl

theorem bitFlags_spec (b : BitVec 3) (t y x : Bool) (f : Byte) :
    FlagBits (bitFlags b t y x f) (decide (b = 7#3) && t) (!t) y true x (!t) false (f.getLsbD 0) := packF_bits ..

end Sys2Proof.Machine
end

