-- ==== Sys2Proof/Laws/Memory.lean ====
section
/-! SUPPORT. Memory: a read gives the latest write, a write changes no other cell, and every operation keeps the canonical
form (spec 20_memory.md R40 to R44). -/

namespace Sys2Proof.Machine

/-! ## The cell list -/

namespace Memory

theorem read_insert (m : Memory) (k j : Nat) (w : Byte) :
    (m.insert k w).read j = if j = k then w else m.read j := by
  induction m with
  | nil => simp [insert, read]
  | cons c m ih =>
    obtain ⟨a, v⟩ := c
    simp only [insert]
    split
    · simp [read]
    · split
      · subst k; simp only [read]; split <;> rfl
      · simp only [read, ih]; split <;> split <;> simp_all

theorem read_erase (m : Memory) (k j : Nat) :
    (m.erase k).read j = if j = k then Config.unwritten else m.read j := by
  induction m with
  | nil => simp [erase, read]
  | cons c m ih =>
    obtain ⟨a, v⟩ := c
    simp only [erase]
    split
    · subst k; simp only [read, ih]; split <;> rfl
    · simp only [read, ih]; split <;> split <;> simp_all

/-- A read after a write: the value written at its address, elsewhere what stood there. -/
@[simp] theorem read_write (m : Memory) (k j : Nat) (w : Byte) :
    (m.write k w).read j = if j = k then w else m.read j := by
  unfold write
  split
  · subst w; exact read_erase m k j
  · exact read_insert m k j w

theorem wfFrom_mono {m : Memory} {i j : Nat} (h : wfFrom j m = true) (hij : i ≤ j) : wfFrom i m = true := by
  cases m with
  | nil => rfl
  | cons c m =>
    obtain ⟨a, v⟩ := c
    simp only [wfFrom, Bool.and_eq_true, decide_eq_true_eq] at *
    exact ⟨⟨⟨by omega, h.1.1.2⟩, h.1.2⟩, h.2⟩

theorem wfFrom_insert {m : Memory} {i k : Nat} {w : Byte} (h : wfFrom i m = true) (hi : i ≤ k) (hk : k < 65536)
    (hw : w ≠ Config.unwritten) : wfFrom i (m.insert k w) = true := by
  induction m generalizing i with
  | nil => simp [insert, wfFrom, hi, hk, hw]
  | cons c m ih =>
    obtain ⟨a, v⟩ := c
    simp only [wfFrom, Bool.and_eq_true, decide_eq_true_eq, bne_iff_ne] at h
    simp only [insert]
    split
    · simp only [wfFrom, Bool.and_eq_true, decide_eq_true_eq, bne_iff_ne]
      exact ⟨⟨⟨hi, hk⟩, hw⟩, ⟨⟨by omega, h.1.1.2⟩, h.1.2⟩, h.2⟩
    · split
      · subst k; simp [wfFrom, hi, hk, hw, h.2]
      · simp only [wfFrom, Bool.and_eq_true, decide_eq_true_eq, bne_iff_ne]
        exact ⟨h.1, ih h.2 (by omega)⟩

theorem wfFrom_erase {m : Memory} {i k : Nat} (h : wfFrom i m = true) : wfFrom i (m.erase k) = true := by
  induction m generalizing i with
  | nil => rfl
  | cons c m ih =>
    obtain ⟨a, v⟩ := c
    simp only [wfFrom, Bool.and_eq_true, decide_eq_true_eq, bne_iff_ne] at h
    simp only [erase]
    split
    · exact wfFrom_mono (ih h.2) (by omega)
    · simp only [wfFrom, Bool.and_eq_true, decide_eq_true_eq, bne_iff_ne]
      exact ⟨h.1, ih h.2⟩

/-- A write at an address of the address space keeps the canonical form. -/
theorem wf_write {m : Memory} (h : m.wf = true) (a : Word) (w : Byte) : (m.write a.toNat w).wf = true := by
  unfold write
  split
  · exact wfFrom_erase h
  · exact wfFrom_insert h (Nat.zero_le _) a.isLt ‹_›

theorem wf_writeAll {m : Memory} (h : m.wf = true) (cs : List (Word × Byte)) : (m.writeAll cs).wf = true := by
  induction cs generalizing m with
  | nil => exact h
  | cons c cs ih => exact ih (wf_write h c.1 c.2)

/-- A read after a list of stores: what the last store there left, elsewhere what stood there. -/
theorem read_writeAll (m : Memory) (cs : List (Word × Byte)) (a : Word) :
    (m.writeAll cs).read a.toNat = (lastStore cs a).getD (m.read a.toNat) := by
  induction cs generalizing m with
  | nil => rfl
  | cons c cs ih =>
    obtain ⟨x, v⟩ := c
    simp only [writeAll, ih, lastStore, read_write, BitVec.toNat_inj, eq_comm (a := a)]
    cases lastStore cs a <;> simp only [Option.getD_some, Option.getD_none, Option.some_or, Option.none_or]
    split <;> rfl

end Memory

theorem lastStore_eq_none {cs : List (Word × Byte)} {a : Word} (h : a ∉ cs.map (·.1)) : lastStore cs a = none := by
  induction cs with
  | nil => rfl
  | cons c cs ih =>
    simp only [List.map_cons, List.mem_cons, not_or] at h
    simp [lastStore, ih h.2, Ne.symm h.1]

/-! ## The state's memory -/

namespace State

variable (s : State)

/-- The byte read after a store. -/
theorem read8_write8 (a x : Word) (v : Byte) : (s.write8 a v).read8 x = if x = a then v else s.read8 x := by
  simp only [read8, write8_mem, Memory.read_write, ← BitVec.toNat_inj]

@[simp] theorem read8_write8_same (a : Word) (v : Byte) : (s.write8 a v).read8 a = v := by simp [read8_write8]

theorem read8_write8_ne {a x : Word} (h : x ≠ a) (v : Byte) : (s.write8 a v).read8 x = s.read8 x := by
  simp [read8_write8, h]

/-- Only memory decides what a read answers. -/
theorem read8_congr {s t : State} (h : t.mem = s.mem) (a : Word) : t.read8 a = s.read8 a := by simp [read8, h]

theorem word_succ_ne (a : Word) : a + 1#16 ≠ a := by bv_omega

/-- The byte read after a word was stored (R41, R42). -/
theorem read8_write16 (a x w : Word) :
    (s.write16 a w).read8 x = if x = a + 1#16 then hi w else if x = a then lo w else s.read8 x := by
  simp only [write16, read8_write8]

/-- The byte read after a push: the word stands at the new `SP`, low byte first (R44). -/
theorem read8_push16 (w x : Word) :
    (s.push16 w).read8 x = if x = s.sp - 2#16 then lo w else if x = s.sp - 1#16 then hi w else s.read8 x := by
  have e : s.sp - 1#16 - 1#16 = s.sp - 2#16 := by bv_omega
  have h : (s.push16 w).read8 x = (((s.write8 (s.sp - 1#16) (hi w)).write8 (s.sp - 1#16 - 1#16) (lo w))).read8 x := rfl
  rw [h, e]; simp only [read8_write8]

theorem wf_write8 (h : s.mem.wf = true) (a : Word) (v : Byte) : (s.write8 a v).mem.wf = true := Memory.wf_write h a v

theorem wf_write16 (h : s.mem.wf = true) (a w : Word) : (s.write16 a w).mem.wf = true :=
  Memory.wf_write (Memory.wf_write h a _) (a + 1#16) _

theorem wf_push16 (h : s.mem.wf = true) (w : Word) : (s.push16 w).mem.wf = true :=
  Memory.wf_write (Memory.wf_write h (s.sp - 1#16) _) (s.sp - 1#16 - 1#16) _

/-! ## The platform's stores in a port access (D17) -/

theorem read8_ioRead (p a : Word) : (s.ioRead p).read8 a = byteAfter (s.readReply p).2 s a := Memory.read_writeAll ..

theorem read8_ioWrite (p : Word) (v : Byte) (a : Word) : (s.ioWrite p v).read8 a = byteAfter (s.writeReply p v) s a :=
  Memory.read_writeAll ..

theorem wf_ioRead (h : s.mem.wf = true) (p : Word) : (s.ioRead p).mem.wf = true := Memory.wf_writeAll h _

theorem wf_ioWrite (h : s.mem.wf = true) (p : Word) (v : Byte) : (s.ioWrite p v).mem.wf = true := Memory.wf_writeAll h _

end State

/-- A cell the platform does not store to keeps its byte. -/
theorem byteAfter_of_not_mem {e : IoEffect} {a : Word} (h : a ∉ e.stores.map (·.1)) (s : State) :
    byteAfter e s a = s.read8 a := by simp [byteAfter, lastStore_eq_none h]

/-- The memory after reset is in canonical form. -/
theorem State.wf_reset (d : InitRegs) : (State.resetWith d).mem.wf = true := rfl

end Sys2Proof.Machine
end

