-- ==== Sys2Proof/Laws/Frames.lean ====
section
/-! SUPPORT. What the named updates, alone and in the orders the meanings use them, leave of a state, in the words of
Safety.lean. -/

namespace Sys2Proof.Machine

open State

variable (s : State)

/-! ## Reading through updates that touch no register -/

@[simp] theorem getR_tick (n : Nat) (r : Reg8) : (s.tick n).getR r = s.getR r := by cases r <;> rfl
@[simp] theorem getR_write8 (a : Word) (v : Byte) (r : Reg8) : (s.write8 a v).getR r = s.getR r := by cases r <;> rfl
@[simp] theorem getF_tick (n : Nat) : (s.tick n).getF = s.getF := rfl
@[simp] theorem getF_write8 (a : Word) (v : Byte) : (s.write8 a v).getF = s.getF := rfl
@[simp] theorem getA_tick (n : Nat) : (s.tick n).getA = s.getA := rfl
@[simp] theorem getA_write8 (a : Word) (v : Byte) : (s.write8 a v).getA = s.getA := rfl
@[simp] theorem getSs_tick (n : Nat) (p : Pair) : (s.tick n).getSs p = s.getSs p := by cases p <;> rfl
@[simp] theorem getQq_tick (n : Nat) (p : PairQ) : (s.tick n).getQq p = s.getQq p := by cases p <;> rfl
@[simp] theorem getIi_tick (n : Nat) (ii : Idx) : (s.tick n).getIi ii = s.getIi ii := by cases ii <;> rfl
@[simp] theorem getP_tick (n : Nat) (ii : Idx) (p : RegP) : (s.tick n).getP ii p = s.getP ii p := by
  cases p <;> cases ii <;> rfl
@[simp] theorem getIi_setF (v : Byte) (ii : Idx) : (s.setF v).getIi ii = s.getIi ii := by cases ii <;> rfl
@[simp] theorem read8_tick (n : Nat) (a : Word) : (s.tick n).read8 a = s.read8 a := rfl
@[simp] theorem read8_setF (v : Byte) (a : Word) : (s.setF v).read8 a = s.read8 a := rfl
@[simp] theorem read8_setR (r : Reg8) (v : Byte) (a : Word) : (s.setR r v).read8 a = s.read8 a := by cases r <;> rfl

/-! ## One 8-bit register -/

/-- Writing a register and ticking: only that register changed. -/
theorem setR_spec (n : Nat) (r : Reg8) (v : Byte) :
    MainOnly n s ((s.setR r v).tick n) ∧ ((s.setR r v).tick n).getF = s.getF ∧ RegSet r v s ((s.setR r v).tick n) := by
  refine ⟨⟨by cases r <;> rfl, fun a => by simp⟩, by simp, by simp, fun x hx => ?_⟩
  simp [getR_setR_ne s hx]

/-- The same with the flags set first. -/
theorem setF_setR_spec (n : Nat) (f : Byte) (r : Reg8) (v : Byte) :
    MainOnly n s (((s.setF f).setR r v).tick n) ∧ RegSet r v s (((s.setF f).setR r v).tick n)
      ∧ (((s.setF f).setR r v).tick n).getF = f := by
  refine ⟨⟨by cases r <;> rfl, fun a => by simp⟩, ⟨by simp, fun x hx => ?_⟩, by simp⟩
  simp [getR_setR_ne _ hx]

/-- Setting the flags and ticking: `A` is kept. -/
theorem setF_spec (n : Nat) (f : Byte) :
    AfOnly n s ((s.setF f).tick n) ∧ ((s.setF f).tick n).getA = s.getA ∧ ((s.setF f).tick n).getF = f :=
  ⟨⟨rfl, fun _ => rfl⟩, by simp, by simp⟩

/-! ## One memory cell -/

/-- A store and a tick: only that cell changed. -/
theorem write8_spec (n : Nat) (a : Word) (v : Byte) :
    MemOnly n s ((s.write8 a v).tick n) ∧ Put8 a v s ((s.write8 a v).tick n) :=
  ⟨rfl, by simp, fun x hx => by simp [read8_write8_ne s hx]⟩

/-- A store, then the flags. -/
theorem write8_setF_spec (n : Nat) (a : Word) (v f : Byte) :
    AfMemOnly n s (((s.write8 a v).setF f).tick n) ∧ (((s.write8 a v).setF f).tick n).getA = s.getA
      ∧ Put8 a v s (((s.write8 a v).setF f).tick n) ∧ (((s.write8 a v).setF f).tick n).getF = f :=
  ⟨rfl, by simp, ⟨by simp, fun x hx => by simp [read8_write8_ne s hx]⟩, by simp⟩

/-- A store, then a register. -/
theorem write8_setR_spec (n : Nat) (a : Word) (v : Byte) (r : Reg8) (w : Byte) :
    MainMemOnly n s (((s.write8 a v).setR r w).tick n) ∧ RegSet r w s (((s.write8 a v).setR r w).tick n)
      ∧ Put8 a v s (((s.write8 a v).setR r w).tick n) ∧ (((s.write8 a v).setR r w).tick n).getF = s.getF := by
  refine ⟨by cases r <;> rfl, ⟨by simp, fun x hx => ?_⟩, ⟨by simp, fun x hx => by simp [read8_write8_ne s hx]⟩, by simp⟩
  simp [getR_setR_ne _ hx]

/-- A store, then the flags, then a register. -/
theorem write8_setF_setR_spec (n : Nat) (a : Word) (v f : Byte) (r : Reg8) (w : Byte) :
    MainMemOnly n s ((((s.write8 a v).setF f).setR r w).tick n)
      ∧ RegSet r w s ((((s.write8 a v).setF f).setR r w).tick n)
      ∧ Put8 a v s ((((s.write8 a v).setF f).setR r w).tick n)
      ∧ ((((s.write8 a v).setF f).setR r w).tick n).getF = f := by
  refine ⟨by cases r <;> rfl, ⟨by simp, fun x hx => ?_⟩, ⟨by simp, fun x hx => by simp [read8_write8_ne s hx]⟩, by simp⟩
  simp [getR_setR_ne _ hx]

theorem Put16.of_mem {s t t' : State} {a w : Word} (h : Put16 a w s t) (e : t'.mem = t.mem) : Put16 a w s t' := by
  simpa [Put16, read8, e] using h

theorem Put8.of_mem {s t t' : State} {a : Word} {v : Byte} (h : Put8 a v s t) (e : t'.mem = t.mem) : Put8 a v s t' := by
  simpa [Put8, read8, e] using h

/-- A word stored at an absolute address (20_memory.md R41, R42). -/
theorem write16_spec (n : Nat) (a w : Word) :
    MemOnly n s ((s.write16 a w).tick n) ∧ Put16 a w s ((s.write16 a w).tick n) := by
  have e : a ≠ a + 1#16 := (word_succ_ne a).symm
  refine ⟨rfl, ?_, ?_, fun x h1 h2 => ?_⟩ <;> simp [read8_write16, *] <;> rfl

/-- A word pushed (R44). -/
theorem push16_put (w : Word) : Put16 (s.sp - 2#16) w s (s.push16 w) := by
  have e : s.sp - 2#16 + 1#16 = s.sp - 1#16 := by bv_omega
  have d : s.sp - 1#16 ≠ s.sp - 2#16 := by bv_omega
  refine ⟨?_, ?_, fun x h1 h2 => ?_⟩
  · simp [read8_push16]; rfl
  · rw [e]; simp [read8_push16, d]; rfl
  · rw [e] at h2; simp [read8_push16, h1, h2]

theorem sp_sub_two (w : Word) : w - 1#16 - 1#16 = w - 2#16 := by bv_omega

theorem sp_add_two (w : Word) : w + 1#16 + 1#16 = w + 2#16 := by bv_omega

/-- What a push leaves of the rest. -/
theorem push16_frame (w : Word) : s.push16 w = { s with sp := s.sp - 2#16, mem := (s.push16 w).mem } := by
  rw [← sp_sub_two]; rfl

/-- What a pop leaves of the rest. -/
theorem pop16_frame : s.pop16 = { s with sp := s.sp + 2#16 } := by rw [← sp_add_two]; rfl

/-- The word over the word at `SP` (R45 item 5). -/
theorem replaceTop_put (w : Word) : Put16 s.sp w s (replaceTop w s) := by
  have h : replaceTop w s = (s.write8 (s.sp + 1#16) (hi w)).write8 s.sp (lo w) := rfl
  have e : s.sp + 1#16 ≠ s.sp := word_succ_ne _
  refine ⟨?_, ?_, fun x h1 h2 => ?_⟩ <;> rw [h] <;> simp [read8_write8, *] <;> rfl

/-! ## Pairs and index registers -/

theorem setSs_spec (n : Nat) (p : Pair) (w : Word) :
    PairOnly n s ((s.setSs p w).tick n) ∧ PairSet p w s ((s.setSs p w).tick n) := by
  refine ⟨⟨by cases p <;> rfl, fun a => by cases p <;> rfl⟩, by simp, fun x hx => ?_⟩
  simp [getSs_setSs_ne s hx]

theorem setIi_spec (n : Nat) (ii : Idx) (w : Word) : LoadsIdx n ii w s ((s.setIi ii w).tick n) := by
  refine ⟨⟨by cases ii <;> rfl, fun a => by cases ii <;> rfl⟩, by cases ii <;> rfl, by simp, by cases ii <;> rfl⟩

theorem setIi_setF_spec (n : Nat) (ii : Idx) (w : Word) (f : Byte) :
    XyOnly n s (((s.setIi ii w).setF f).tick n) ∧ (((s.setIi ii w).setF f).tick n).getA = s.getA
      ∧ IdxSet ii w s (((s.setIi ii w).setF f).tick n) ∧ (((s.setIi ii w).setF f).tick n).getF = f := by
  refine ⟨⟨by cases ii <;> rfl, fun a => by cases ii <;> rfl⟩, ?_, ⟨?_, by cases ii <;> rfl⟩, ?_⟩
  · cases ii <;> simp [setIi, setF, getA]
  · simp
  · cases ii <;> simp

/-- The flags set, then a half of an index register. -/
theorem setF_setP_spec (n : Nat) (ii : Idx) (f : Byte) (p : RegP) (v : Byte) (hp : p.isHalf = true) :
    let t := ((s.setF f).setP ii p v).tick n
    XyOnly n s t ∧ t.getA = s.getA
      ∧ IdxSet ii (if p = .iih then v ++ (s.getIi ii).extractLsb' 0 8 else (s.getIi ii).extractLsb' 8 8 ++ v) s t
      ∧ t.getF = f := by
  cases p <;> simp only [RegP.isHalf, Bool.false_eq_true] at hp <;> cases ii <;>
    exact ⟨⟨rfl, fun _ => rfl⟩, getA_setF s f, ⟨rfl, rfl⟩, getF_setF s f⟩

/-! ## Pops -/

/-- The word a pop answers is the word at `SP`. -/
theorem top16_eq : s.top16 = wordAt s s.sp := rfl

theorem pop16_setQq_spec (n : Nat) (qq : PairQ) (w : Word) :
    let t := (s.pop16.setQq qq w).tick n
    t = { s with af := t.af, bc := t.bc, de := t.de, hl := t.hl, sp := s.sp + 2#16, cycles := s.cycles + n }
      ∧ SameMem s t ∧ PairQSet qq w s t := by
  rw [pop16_frame]
  refine ⟨by cases qq <;> rfl, fun a => by cases qq <;> rfl, by simp, fun x hx => ?_⟩
  rw [getQq_tick, getQq_setQq_ne _ hx]; cases x <;> rfl

theorem pop16_setIi_spec (n : Nat) (ii : Idx) (w : Word) :
    let t := (s.pop16.setIi ii w).tick n
    t = { s with ix := t.ix, iy := t.iy, sp := s.sp + 2#16, cycles := s.cycles + n }
      ∧ SameMem s t ∧ IdxSet ii w s t := by
  rw [pop16_frame]
  exact ⟨by cases ii <;> rfl, fun a => by cases ii <;> rfl, by cases ii <;> rfl, by cases ii <;> rfl⟩

/-- The word at `SP` exchanged with an index register. -/
theorem replaceTop_setIi_spec (n : Nat) (ii : Idx) (v w : Word) :
    let t := ((replaceTop v s).setIi ii w).tick n
    t = { s with ix := t.ix, iy := t.iy, mem := t.mem, cycles := s.cycles + n } ∧ IdxSet ii w s t ∧ Put16 s.sp v s t := by
  have h := replaceTop_put s v
  have e : replaceTop v s = { s with mem := (replaceTop v s).mem } := rfl
  generalize (replaceTop v s).mem = m at e
  rw [e] at h ⊢
  exact ⟨by cases ii <;> rfl, ⟨by simp, by cases ii <;> rfl⟩, h.of_mem (by simp)⟩

end Sys2Proof.Machine
end

