-- ==== Sys2Proof/Laws/Exec.lean ====
section
/-! SUPPORT. What a next state of `exec` can differ in, said once for all instructions. -/

namespace Sys2Proof.Machine

open State

/-- The instructions that write a component no ordinary instruction writes: the shadow set, `I`, `R`, the mode, the latches,
`halted`, the decode state. -/
def writesControl : Instr → Bool
  | .exAfAf | .exx | .ldIA | .ldRA | .im0 _ | .im1 _ | .im2 _ | .ei | .di | .retn _ | .reti | .halt => true
  | i => isPrefixRow i

/-- A kept entry that completes does what the entry of table `NP` does. -/
theorem exec_npUnchanged {ii : Idx} {j : Instr} {s t : State} (h : exec (.npUnchanged ii j) s = .next t) :
    exec j s = .next t ∧ ∀ ii k, j ≠ .npUnchanged ii k := by
  cases j <;> first | exact ⟨h, by intros; simp⟩ | exact Host.Outcome.noConfusion rfl rfl rfl (heq_of_eq h)

/-- A claim about next states holds of every instruction if it holds of all but the kept entries. -/
theorem effective_cases {P : Instr → Prop} {i : Instr} {s t : State} (h : exec i s = .next t)
    (k : ∀ j, (∀ ii k, j ≠ .npUnchanged ii k) → exec j s = .next t → P j) : P (effective i) := by
  by_cases hn : ∀ ii j, i ≠ .npUnchanged ii j
  · have e : effective i = i := by cases i <;> first | rfl | exact absurd rfl (hn _ _)
    rw [e]; exact k i hn h
  · push Not at hn
    obtain ⟨ii, j, rfl⟩ := hn
    obtain ⟨h1, h2⟩ := exec_npUnchanged h
    exact k j h2 h1

/-- Nothing but registers that programs compute with, memory and the counters may have changed. -/
def Ordinary (s t : State) : Prop :=
  t = { s with af := t.af, bc := t.bc, de := t.de, hl := t.hl, ix := t.ix, iy := t.iy, sp := t.sp, pc := t.pc,
               mem := t.mem, cycles := t.cycles, draws := t.draws }

theorem Ordinary.trans {s t u : State} (h : Ordinary s t) (k : Ordinary t u) : Ordinary s u := by
  unfold Ordinary at *; rw [k, h]

namespace Ordinary

variable {s u : State}

theorem tick (n : Nat) (h : Ordinary s u) : Ordinary s (u.tick n) := h.trans rfl
theorem tickPrefixed (n : Nat) (h : Ordinary s u) : Ordinary s (u.tickPrefixed n) := h.trans rfl
theorem setR (r : Reg8) (v : Byte) (h : Ordinary s u) : Ordinary s (u.setR r v) := h.trans (by cases r <;> rfl)
theorem setP (ii : Idx) (p : RegP) (v : Byte) (h : Ordinary s u) : Ordinary s (u.setP ii p v) :=
  h.trans (by cases p <;> cases ii <;> rfl)
theorem setIi (ii : Idx) (w : Word) (h : Ordinary s u) : Ordinary s (u.setIi ii w) := h.trans (by cases ii <;> rfl)
theorem setSs (p : Pair) (w : Word) (h : Ordinary s u) : Ordinary s (u.setSs p w) := h.trans (by cases p <;> rfl)
theorem setQq (p : PairQ) (w : Word) (h : Ordinary s u) : Ordinary s (u.setQq p w) := h.trans (by cases p <;> rfl)

theorem ite {c : Prop} [Decidable c] {a b : State} (ha : Ordinary s a) (hb : Ordinary s b) :
    Ordinary s (if c then a else b) := by split <;> assumption

theorem repeatIf (b : Bool) (h : Ordinary s u) : Ordinary s (repeatIf b u) := h.trans (by cases b <;> rfl)

end Ordinary

theorem exec_ordinary_low {i : Instr} {s t : State} (hk : decide (i.ctorIdx < 60) = true)
    (hn : ∀ ii k, i ≠ .npUnchanged ii k) (hc : writesControl i = false) (hp : ioClass i = false)
    (h : exec i s = .next t) : Ordinary s t := by
  cases i
  case npUnchanged ii k => exact absurd rfl (hn ii k)
  all_goals first
    | exact Bool.noConfusion (show false = true from hk)
    | exact Bool.noConfusion (show true = false from hc)
    | exact Bool.noConfusion (show true = false from hp)
    | obtain rfl := Host.Outcome.next.inj h
  all_goals first
    | rfl
    | exact .ite rfl rfl
    | exact .tick _ (.ite rfl rfl)
    | exact .tick _ (.setR _ _ rfl)
    | exact .tickPrefixed _ (.setR _ _ rfl)
    | exact .tick _ (.setSs _ _ rfl)

theorem exec_ordinary_mid {i : Instr} {s t : State} (hk : decide (60 ≤ i.ctorIdx ∧ i.ctorIdx < 125) = true)
    (hn : ∀ ii k, i ≠ .npUnchanged ii k) (hc : writesControl i = false) (hp : ioClass i = false)
    (h : exec i s = .next t) : Ordinary s t := by
  cases i
  case npUnchanged ii k => exact absurd rfl (hn ii k)
  all_goals first
    | exact Bool.noConfusion (show false = true from hk)
    | exact Bool.noConfusion (show true = false from hc)
    | exact Bool.noConfusion (show true = false from hp)
    | obtain rfl := Host.Outcome.next.inj h
  all_goals first
    | rfl
    | exact .ite rfl rfl
    | exact .tick _ (.ite rfl rfl)
    | exact .tick _ (.setR _ _ rfl)
    | exact .tickPrefixed _ (.setR _ _ rfl)
    | exact .tick _ (.setSs _ _ rfl)
    | exact .tickPrefixed _ (.setSs _ _ rfl)
    | exact .tick _ (.setQq _ _ rfl)

theorem exec_ordinary_high {i : Instr} {s t : State} (hk : decide (125 ≤ i.ctorIdx) = true)
    (hn : ∀ ii k, i ≠ .npUnchanged ii k) (hc : writesControl i = false) (hp : ioClass i = false)
    (h : exec i s = .next t) : Ordinary s t := by
  cases i
  case npUnchanged ii k => exact absurd rfl (hn ii k)
  all_goals first
    | exact Bool.noConfusion (show false = true from hk)
    | exact Bool.noConfusion (show true = false from hc)
    | exact Bool.noConfusion (show true = false from hp)
    | obtain rfl := Host.Outcome.next.inj h
  all_goals first
    | rfl
    | exact .ite rfl rfl
    | exact .tick _ (.ite rfl rfl)
    | exact .tick _ (.setR _ _ rfl)
    | exact .tickPrefixed _ (.setR _ _ rfl)
    | exact .tick _ (.setSs _ _ rfl)
    | exact .tickPrefixed _ (.setSs _ _ rfl)
    | exact .tick _ (.setQq _ _ rfl)
    | exact .tickPrefixed _ (.setIi _ _ rfl)
    | exact .tickPrefixed _ (.setP _ _ _ rfl)
    | exact .repeatIf _ rfl
    | exact .tickPrefixed _ (((Ordinary.setIi _ _ (show Ordinary s s from rfl))).trans rfl)

/-- Every instruction that neither accesses a port nor writes control state is ordinary. -/
theorem exec_ordinary {i : Instr} {s t : State} (hn : ∀ ii k, i ≠ .npUnchanged ii k) (hc : writesControl i = false)
    (hp : ioClass i = false) (h : exec i s = .next t) : Ordinary s t := by
  by_cases h1 : i.ctorIdx < 60
  · exact exec_ordinary_low (decide_eq_true h1) hn hc hp h
  by_cases h2 : i.ctorIdx < 125
  · exact exec_ordinary_mid (decide_eq_true ⟨Nat.le_of_not_lt h1, h2⟩) hn hc hp h
  · exact exec_ordinary_high (decide_eq_true (Nat.le_of_not_lt h2)) hn hc hp h

/-! ## Port accesses -/

theorem takenFirst_find? {α : Type} (q : α → Bool) (l : List α) : TakenFirst q l (l.eraseP q) (l.find? q) := by
  induction l with
  | nil => exact ⟨fun x hx => absurd hx List.not_mem_nil, rfl⟩
  | cons y l ih =>
    by_cases h : q y = true
    · rw [List.find?_cons_of_pos h, List.eraseP_cons_of_pos h]
      exact ⟨h, [], l, rfl, rfl, fun x hx => absurd hx List.not_mem_nil⟩
    · rw [List.find?_cons_of_neg h, List.eraseP_cons_of_neg h]
      have h : q y = false := by simpa using h
      cases hf : l.find? q with
      | none =>
        rw [hf] at ih
        exact ⟨List.forall_mem_cons.2 ⟨h, ih.1⟩, congrArg (y :: ·) ih.2⟩
      | some x =>
        rw [hf] at ih
        obtain ⟨hx, b, a, h1, h2, h3⟩ := ih
        exact ⟨hx, y :: b, a, congrArg (y :: ·) h1, congrArg (y :: ·) h2, List.forall_mem_cons.2 ⟨h, h3⟩⟩

theorem moveMi_eq (now : Option Byte) (c : MiChange) :
    moveMi now c = (match c with | .keep => now | .drop => none | .raise v => some v) := by cases c <;> rfl

/-- All that `ioRead` does, memory apart (`read8_ioRead`). -/
theorem ioRead_spec (s : State) (p : Word) :
    PortAccessed (.read p (s.ioByte p)) (s.readReply p).2 s (s.ioRead p) := by
  refine ⟨rfl, rfl, rfl, rfl, moveMi_eq _ _, rfl, _, takenFirst_find? _ _, ?_⟩
  cases h : s.ioIn.find? (readServes p) <;> simp only [ioByte, readReply, h]

/-- All that `ioWrite` does, memory apart (`read8_ioWrite`). -/
theorem ioWrite_spec (s : State) (p : Word) (v : Byte) :
    PortAccessed (.write p v) (s.writeReply p v) s (s.ioWrite p v) := by
  refine ⟨rfl, rfl, rfl, rfl, moveMi_eq _ _, rfl, _, takenFirst_find? _ _, ?_⟩
  cases h : s.ioOut.find? (writeServes p v) <;> simp only [writeReply, h]

/-- What a port access and a later change of `AF`, `BC`, `DE`, `HL`, `PC`, memory and the counter leave. -/
def PortDone (s t : State) : Prop := PortOnly s t ∧ ∃ ev e, PortAccessed ev e s t

theorem portDone_of {s u : State} {ev : IoEvent} {e : IoEffect} (h : PortAccessed ev e s u) (k : PortOnly s u) :
    PortDone s u := ⟨k, ev, e, h⟩

theorem PortDone.repeatIf {s u : State} (b : Bool) (h : PortDone s u) : PortDone s (repeatIf b u) := by
  obtain ⟨k, ev, e, h⟩ := h
  refine ⟨?_, ev, e, ?_⟩
  · unfold PortOnly at k ⊢; rw [k]; cases b <;> rfl
  · cases b <;> exact h

theorem exec_port {i : Instr} {s t : State} (hn : ∀ ii k, i ≠ .npUnchanged ii k) (hp : ioClass i = true)
    (h : exec i s = .next t) : PortDone s t := by
  cases i
  case npUnchanged ii k => exact absurd rfl (hn ii k)
  all_goals first
    | exact Bool.noConfusion (show false = true from hp)
    | obtain rfl := Host.Outcome.next.inj h
  all_goals clear h hn hp
  case inRegC r => cases r <;> exact portDone_of (ioRead_spec _ _) rfl
  all_goals first
    | exact portDone_of (ioRead_spec _ _) rfl
    | exact portDone_of (ioWrite_spec _ _ _) rfl
    | exact .repeatIf _ (portDone_of (ioRead_spec _ _) rfl)
    | exact .repeatIf _ (portDone_of (ioWrite_spec _ _ _) rfl)

end Sys2Proof.Machine
end

