-- ==== Sys2Proof/Laws/Step.lean ====
section
/-! SUPPORT. What a step can do, said once: which of its three kinds an iteration is, what a fetch hands to `exec`, and how an
interrupt check ends (spec 40_dispatch.md R91 to R98, 60_exceptions.md R385 to R392). -/

namespace Sys2Proof.Machine

open State

/-! ## Which iteration it is -/

theorem checkDue_iff (s : State) : s.checkDue = true ↔ CheckDue s := by
  unfold checkDue CheckDue
  cases s.istat <;> simp

theorem iteration_check (s : State) : s.iteration = .check ↔ AtBoundary s ∧ CheckDue s := by
  rw [← checkDue_iff]; unfold iteration AtBoundary
  cases s.pfx <;> simp

theorem iteration_spin (s : State) : s.iteration = .spin ↔ s.pfx = .halt ∧ ¬ CheckDue s := by
  rw [← checkDue_iff]; unfold iteration
  cases s.pfx <;> simp
  split <;> simp_all

theorem iteration_fetch (s : State) (t : Table) :
    s.iteration = .fetch t ↔ s.pfx = pfxOf t ∧ (t = .np → ¬ CheckDue s) := by
  rw [← checkDue_iff]; unfold iteration
  cases s.pfx <;> cases t <;> simp [pfxOf]
  all_goals (split <;> simp_all)

/-! ## What a fetch hands to `exec` -/

/-- The state in which the entry of a table at `PC` runs when `n` bytes of it were read (R94 to R97). -/
def fetched (s : State) (t : Table) (n : Nat) : State := { s.beginFetch t with pc := s.pc + BitVec.ofNat 16 n }

@[simp] theorem beginFetch_pc (s : State) (t : Table) : (s.beginFetch t).pc = s.pc := by cases t <;> rfl

@[simp] theorem beginFetch_window (s : State) (t : Table) : (s.beginFetch t).window = s.window := by cases t <;> rfl

theorem fetchEntry_ok {s : State} {t : Table} {i : Instr} {rest : List Byte} (h : decodeIn t s.window = .ok (i, rest)) :
    (s.beginFetch t).fetchEntry t = some (i, fetched s t (3 - rest.length)) := by
  simp [fetchEntry, h, fetched]

/-- A fetch iteration runs the instruction its table reads at `PC`. -/
theorem step_fetch {s : State} {t : Table} {i : Instr} {rest : List Byte} (ht : s.iteration = .fetch t)
    (h : decodeIn t s.window = .ok (i, rest)) : step s = exec i (fetched s t (3 - rest.length)) := by
  unfold step; rw [ht]; simp only [fetchEntry_ok h]

theorem step_check {s : State} (h : s.iteration = .check) : step s = interruptCheck s := by unfold step; rw [h]

theorem step_spin {s : State} (h : s.iteration = .spin) : step s = .next s.haltSpin := by unfold step; rw [h]

/-- Every way a step goes on. -/
theorem step_cases {s t : State} (h : step s = .next t) :
    (s.iteration = .check ∧ interruptCheck s = .next t) ∨ (s.iteration = .spin ∧ t = s.haltSpin)
      ∨ ∃ tab i rest, s.iteration = .fetch tab ∧ decodeIn tab s.window = .ok (i, rest)
          ∧ exec i (fetched s tab (3 - rest.length)) = .next t := by
  cases hi : s.iteration with
  | check => exact .inl ⟨rfl, (step_check hi).symm.trans h⟩
  | spin => exact .inr (.inl ⟨rfl, (Host.Outcome.next.inj ((step_spin hi).symm.trans h)).symm⟩)
  | fetch tab =>
    cases hd : decodeIn tab s.window with
    | ok p => exact .inr (.inr ⟨tab, p.1, p.2, rfl, hd, (step_fetch hi hd).symm.trans h⟩)
    | error e => unfold step at h; rw [hi] at h; simp [fetchEntry, hd] at h

/-! ## How an interrupt check ends -/

/-- An acceptance, and which memory it leaves. -/
def Entered (entry : Word) (cost : Nat) (f2 : Bool) (s t : State) : Prop :=
  Accepted entry cost f2 false s t ∧ t.mem = (s.push16 s.pc).mem

/-- Taking an interrupt, from a state whose latches and request the acceptance has set. -/
theorem enter_spec (s : State) (entry : Word) (cost : Nat) (f2 : Bool) :
    Entered entry cost f2 s (State.enter { s with istat := .noCheck, reqNmi := false, iff1 := false, iff2 := f2 } entry cost) := by
  refine ⟨⟨?_, (push16_put s s.pc).of_mem rfl⟩, rfl⟩
  unfold enter; rw [push16_frame]; rfl

theorem interruptCheck_nmi {s : State} (h : s.reqNmi = true) :
    ∃ t, interruptCheck s = .next t ∧ Entered 0x0066#16 11 s.iff2 s t := by
  refine ⟨_, ?_, enter_spec s 0x0066#16 11 s.iff2⟩
  simp only [interruptCheck, h, if_true]; rfl

theorem interruptCheck_none {s : State} (h : s.reqNmi = false) (k : s.reqMi = none ∨ s.iff1 = false) :
    interruptCheck s = .next { s with istat := .noCheck } := by
  unfold interruptCheck
  rcases k with k | k
  · simp only [h, k]; rfl
  · simp only [h, k]; cases s.reqMi <;> rfl

theorem interruptCheck_mi {s : State} {v : Byte} (h : s.reqNmi = false) (hv : s.reqMi = some v) (hf : s.iff1 = true) :
    interruptCheck s = acceptMi v { s with istat := .noCheck } := by
  unfold interruptCheck; simp only [h, hv, hf]; rfl

theorem acceptMi_im1 {s : State} (v : Byte) (h : s.reqNmi = false) (hm : s.im = .im1) :
    ∃ t, acceptMi v { s with istat := .noCheck } = .next t ∧ Entered 0x0038#16 13 false s t := by
  refine ⟨_, ?_, enter_spec s 0x0038#16 13 false⟩
  simp only [acceptMi, hm]; rw [← h]

theorem acceptMi_im2 {s : State} (v : Byte) (h : s.reqNmi = false) (hm : s.im = .im2) :
    ∃ t, acceptMi v { s with istat := .noCheck } = .next t ∧ Entered (s.i ++ v) 19 false s t := by
  refine ⟨_, ?_, enter_spec s (s.i ++ v) 19 false⟩
  simp only [acceptMi, hm]; rw [← h]; rfl

theorem acceptMi_im0 {s : State} (v : Byte) (hm : s.im = .im0) :
    acceptMi v { s with istat := .noCheck } = .fault .im0Service := by simp only [acceptMi, hm]

theorem mode_cases (m : IntMode) : m = .im0 ∨ m = .im1 ∨ m = .im2 := by cases m <;> simp

/-- Every way a check goes on: it accepts, or it only sets the status. -/
theorem interruptCheck_cases {s t : State} (h : interruptCheck s = .next t) :
    (Accepts s ∧ ∃ entry cost f2, Entered entry cost f2 s t) ∨ (¬ Accepts s ∧ t = { s with istat := .noCheck }) := by
  by_cases hn : s.reqNmi = true
  · obtain ⟨u, hu, k⟩ := interruptCheck_nmi hn
    obtain rfl := Host.Outcome.next.inj (hu.symm.trans h)
    exact .inl ⟨.inl hn, _, _, _, k⟩
  have hn : s.reqNmi = false := by simpa using hn
  by_cases k : s.reqMi = none ∨ s.iff1 = false
  · rw [interruptCheck_none hn k] at h
    refine .inr ⟨?_, (Host.Outcome.next.inj h).symm⟩
    rintro (a | ⟨a, b⟩)
    · rw [hn] at a; cases a
    · rcases k with k | k <;> simp_all
  · simp only [not_or, Bool.not_eq_false] at k
    obtain ⟨v, hv⟩ := Option.ne_none_iff_exists'.1 k.1
    have a : Accepts s := .inr ⟨by simp [hv], k.2⟩
    rw [interruptCheck_mi hn hv k.2] at h
    rcases mode_cases s.im with hm | hm | hm
    · rw [acceptMi_im0 v hm] at h; cases h
    · obtain ⟨u, hu, k⟩ := acceptMi_im1 v hn hm
      obtain rfl := Host.Outcome.next.inj (hu.symm.trans h)
      exact .inl ⟨a, _, _, _, k⟩
    · obtain ⟨u, hu, k⟩ := acceptMi_im2 v hn hm
      obtain rfl := Host.Outcome.next.inj (hu.symm.trans h)
      exact .inl ⟨a, _, _, _, k⟩

end Sys2Proof.Machine
end

