-- ==== Sys2Proof/Tests/Slice0.lean ====
section
/-! SUPPORT. The model's own tests: ill-formed terms that the well-formedness check refuses; words written out from the
spec's encodings, one per row of the opcode table; single instructions against the worked examples of spec/ (the rule of
the example is in the test's name); and, for every statement with hypotheses, a state and operands that meet them. -/

namespace Sys2Proof.Tests

open Sys2Proof.Machine

/-! ## Ill-formed terms are refused, one for each check of WellFormed.lean -/

theorem test_wf_refuses_jr_po : Instr.wf (.jrCc .po 0x00#8) = false := by decide

theorem test_wf_refuses_retn_of_reti : Instr.wf (.retn 1#3) = false := by decide

theorem test_wf_refuses_im0_of_im1 : Instr.wf (.im0 2#3) = false := by decide

theorem test_wf_refuses_im1_of_im0 : Instr.wf (.im1 0#3) = false := by decide

theorem test_wf_refuses_im2_of_im0 : Instr.wf (.im2 0#3) = false := by decide

theorem test_wf_refuses_nop_with_opcode_of_neg : Instr.wf (.nopEd 0x44#8) = false := by decide

theorem test_wf_refuses_ldPP_without_half : Instr.wf (.ldPP .ix .b .c) = false := by decide

theorem test_wf_refuses_kept_hl :
    Instr.wf (.npUnchanged .ix (.incSs .hl)) = false ∧ Instr.wf (.npUnchanged .ix .jpHl) = false
      ∧ Instr.wf (.npUnchanged .iy (.pushQq .hl)) = false := by decide

theorem test_wf_refuses_kept_mem :
    Instr.wf (.npUnchanged .iy (.ldRegMem .a)) = false ∧ Instr.wf (.npUnchanged .iy .incMem) = false := by decide

theorem test_wf_refuses_kept_h : Instr.wf (.npUnchanged .ix (.ldRegReg .a .h)) = false := by decide

theorem test_wf_refuses_kept_prefix : Instr.wf (.npUnchanged .ix .prefixCb) = false := by decide

theorem test_wf_refuses_kept_of_another_table :
    Instr.wf (.npUnchanged .ix .ldIA) = false ∧ Instr.wf (.npUnchanged .ix (.rlcReg .b)) = false
      ∧ Instr.wf (.npUnchanged .ix (.npUnchanged .ix .nop)) = false := by decide

theorem test_wf_refuses_kept_jr_po : Instr.wf (.npUnchanged .iy (.jrCc .po 0x00#8)) = false := by decide

/-! ## Decoding: words written out from the spec's encodings -/

/-- The bytes decode to the instruction, and no byte is left. -/
abbrev Reads (bs : List Byte) (i : Instr) : Prop := decode bs = .ok (i, [])

/-- Rows of table `NP` (30_encoding.md R65), one word each. -/
theorem test_decode_np_1 :
    Reads [0x00#8] .nop
    ∧ Reads [0x08#8] .exAfAf
    ∧ Reads [0x10#8, 0xFC#8] (.djnz 0xFC#8)
    ∧ Reads [0x18#8, 0xFC#8] (.jr 0xFC#8)
    ∧ Reads [0x30#8, 0xFC#8] (.jrCc .nc 0xFC#8)
    ∧ Reads [0x31#8, 0x23#8, 0xC1#8] (.ldSsNn .sp 0xC123#16)
    ∧ Reads [0x19#8] (.addHlSs .de)
    ∧ Reads [0x02#8] .ldMemBcA
    ∧ Reads [0x12#8] .ldMemDeA
    ∧ Reads [0x22#8, 0x23#8, 0xC1#8] (.ldMemNnHl 0xC123#16)
    ∧ Reads [0x32#8, 0x23#8, 0xC1#8] (.ldMemNnA 0xC123#16)
    ∧ Reads [0x0A#8] .ldAMemBc
    ∧ Reads [0x1A#8] .ldAMemDe
    ∧ Reads [0x2A#8, 0x23#8, 0xC1#8] (.ldHlMemNn 0xC123#16)
    ∧ Reads [0x3A#8, 0x23#8, 0xC1#8] (.ldAMemNn 0xC123#16)
    ∧ Reads [0x23#8] (.incSs .hl)
    ∧ Reads [0x3B#8] (.decSs .sp)
    ∧ Reads [0x14#8] (.incReg .d)
    ∧ Reads [0x34#8] .incMem
    ∧ Reads [0x2D#8] (.decReg .l)
    ∧ Reads [0x35#8] .decMem
    ∧ Reads [0x3E#8, 0x7F#8] (.ldRegN .a 0x7F#8)
    ∧ Reads [0x36#8, 0x7F#8] (.ldMemN 0x7F#8)
    ∧ Reads [0x07#8] .rlca
    ∧ Reads [0x0F#8] .rrca
    ∧ Reads [0x17#8] .rla := by
  and_intros <;> rfl

/-- Rows of table `NP` (30_encoding.md R65), one word each. -/
theorem test_decode_np_2 :
    Reads [0x1F#8] .rra
    ∧ Reads [0x27#8] .daa
    ∧ Reads [0x2F#8] .cpl
    ∧ Reads [0x37#8] .scf
    ∧ Reads [0x3F#8] .ccf
    ∧ Reads [0x43#8] (.ldRegReg .b .e)
    ∧ Reads [0x56#8] (.ldRegMem .d)
    ∧ Reads [0x75#8] (.ldMemReg .l)
    ∧ Reads [0x76#8] .halt
    ∧ Reads [0x87#8] (.addReg .a)
    ∧ Reads [0x86#8] .addMem
    ∧ Reads [0xC6#8, 0x7F#8] (.addN 0x7F#8)
    ∧ Reads [0x88#8] (.adcReg .b)
    ∧ Reads [0x8E#8] .adcMem
    ∧ Reads [0xCE#8, 0x7F#8] (.adcN 0x7F#8)
    ∧ Reads [0x93#8] (.subReg .e)
    ∧ Reads [0x96#8] .subMem
    ∧ Reads [0xD6#8, 0x7F#8] (.subN 0x7F#8)
    ∧ Reads [0x9A#8] (.sbcReg .d)
    ∧ Reads [0x9E#8] .sbcMem
    ∧ Reads [0xDE#8, 0x7F#8] (.sbcN 0x7F#8)
    ∧ Reads [0xA5#8] (.andReg .l)
    ∧ Reads [0xA6#8] .andMem
    ∧ Reads [0xE6#8, 0x7F#8] (.andN 0x7F#8)
    ∧ Reads [0xAF#8] (.xorReg .a)
    ∧ Reads [0xAE#8] .xorMem := by
  and_intros <;> rfl

/-- Rows of table `NP` (30_encoding.md R65), one word each. -/
theorem test_decode_np_3 :
    Reads [0xEE#8, 0x7F#8] (.xorN 0x7F#8)
    ∧ Reads [0xB0#8] (.orReg .b)
    ∧ Reads [0xB6#8] .orMem
    ∧ Reads [0xF6#8, 0x7F#8] (.orN 0x7F#8)
    ∧ Reads [0xBB#8] (.cpReg .e)
    ∧ Reads [0xBE#8] .cpMem
    ∧ Reads [0xFE#8, 0x7F#8] (.cpN 0x7F#8)
    ∧ Reads [0xE8#8] (.retCc .pe)
    ∧ Reads [0xF1#8] (.popQq .af)
    ∧ Reads [0xC9#8] .ret
    ∧ Reads [0xD9#8] .exx
    ∧ Reads [0xE9#8] .jpHl
    ∧ Reads [0xF9#8] .ldSpHl
    ∧ Reads [0xD2#8, 0x23#8, 0xC1#8] (.jpCc .nc 0xC123#16)
    ∧ Reads [0xC3#8, 0x23#8, 0xC1#8] (.jp 0xC123#16)
    ∧ Reads [0xD3#8, 0x7F#8] (.outNA 0x7F#8)
    ∧ Reads [0xDB#8, 0x7F#8] (.inAN 0x7F#8)
    ∧ Reads [0xE3#8] .exSpHl
    ∧ Reads [0xEB#8] .exDeHl
    ∧ Reads [0xF3#8] .di
    ∧ Reads [0xFB#8] .ei
    ∧ Reads [0xEC#8, 0x23#8, 0xC1#8] (.callCc .pe 0xC123#16)
    ∧ Reads [0xD5#8] (.pushQq .de)
    ∧ Reads [0xCD#8, 0x23#8, 0xC1#8] (.call 0xC123#16)
    ∧ Reads [0xF7#8] (.rst 6#3) := by
  and_intros <;> rfl

/-- Rows of table `CB` (R66), one word each. -/
theorem test_decode_cb_1 :
    Reads [0xCB#8, 0x02#8] (.rlcReg .d)
    ∧ Reads [0xCB#8, 0x06#8] .rlcMem
    ∧ Reads [0xCB#8, 0x0D#8] (.rrcReg .l)
    ∧ Reads [0xCB#8, 0x0E#8] .rrcMem
    ∧ Reads [0xCB#8, 0x17#8] (.rlReg .a)
    ∧ Reads [0xCB#8, 0x16#8] .rlMem
    ∧ Reads [0xCB#8, 0x18#8] (.rrReg .b)
    ∧ Reads [0xCB#8, 0x1E#8] .rrMem
    ∧ Reads [0xCB#8, 0x23#8] (.slaReg .e)
    ∧ Reads [0xCB#8, 0x26#8] .slaMem
    ∧ Reads [0xCB#8, 0x2A#8] (.sraReg .d)
    ∧ Reads [0xCB#8, 0x2E#8] .sraMem
    ∧ Reads [0xCB#8, 0x35#8] (.sllReg .l)
    ∧ Reads [0xCB#8, 0x36#8] .sllMem
    ∧ Reads [0xCB#8, 0x3F#8] (.srlReg .a)
    ∧ Reads [0xCB#8, 0x3E#8] .srlMem
    ∧ Reads [0xCB#8, 0x68#8] (.bitReg 5#3 .b)
    ∧ Reads [0xCB#8, 0x6E#8] (.bitMem 5#3)
    ∧ Reads [0xCB#8, 0xAB#8] (.resReg 5#3 .e)
    ∧ Reads [0xCB#8, 0xAE#8] (.resMem 5#3)
    ∧ Reads [0xCB#8, 0xEA#8] (.setReg 5#3 .d)
    ∧ Reads [0xCB#8, 0xEE#8] (.setMem 5#3) := by
  and_intros <;> rfl

/-- Rows of table `ED` (R67, R68), one word each. -/
theorem test_decode_ed_1 :
    Reads [0xED#8, 0x68#8] (.inRegC .l)
    ∧ Reads [0xED#8, 0x70#8] .inFC
    ∧ Reads [0xED#8, 0x79#8] (.outCReg .a)
    ∧ Reads [0xED#8, 0x71#8] .outCZero
    ∧ Reads [0xED#8, 0x52#8] (.sbcHlSs .de)
    ∧ Reads [0xED#8, 0x6A#8] (.adcHlSs .hl)
    ∧ Reads [0xED#8, 0x73#8, 0x23#8, 0xC1#8] (.ldMemNnSs 0xC123#16 .sp)
    ∧ Reads [0xED#8, 0x5B#8, 0x23#8, 0xC1#8] (.ldSsMemNn .de 0xC123#16)
    ∧ Reads [0xED#8, 0x74#8] (.neg 6#3)
    ∧ Reads [0xED#8, 0x75#8] (.retn 6#3)
    ∧ Reads [0xED#8, 0x4D#8] .reti
    ∧ Reads [0xED#8, 0x6E#8] (.im0 5#3)
    ∧ Reads [0xED#8, 0x76#8] (.im1 6#3)
    ∧ Reads [0xED#8, 0x7E#8] (.im2 7#3)
    ∧ Reads [0xED#8, 0x47#8] .ldIA
    ∧ Reads [0xED#8, 0x4F#8] .ldRA
    ∧ Reads [0xED#8, 0x57#8] .ldAI
    ∧ Reads [0xED#8, 0x5F#8] .ldAR
    ∧ Reads [0xED#8, 0x67#8] .rrd
    ∧ Reads [0xED#8, 0x6F#8] .rld
    ∧ Reads [0xED#8, 0xA0#8] .ldi
    ∧ Reads [0xED#8, 0xA1#8] .cpi
    ∧ Reads [0xED#8, 0xA2#8] .ini
    ∧ Reads [0xED#8, 0xA3#8] .outi
    ∧ Reads [0xED#8, 0xA8#8] .ldd
    ∧ Reads [0xED#8, 0xA9#8] .cpd
    ∧ Reads [0xED#8, 0xAA#8] .ind
    ∧ Reads [0xED#8, 0xAB#8] .outd
    ∧ Reads [0xED#8, 0xB0#8] .ldir
    ∧ Reads [0xED#8, 0xB1#8] .cpir
    ∧ Reads [0xED#8, 0xB2#8] .inir
    ∧ Reads [0xED#8, 0xB3#8] .otir
    ∧ Reads [0xED#8, 0xB8#8] .lddr
    ∧ Reads [0xED#8, 0xB9#8] .cpdr
    ∧ Reads [0xED#8, 0xBA#8] .indr
    ∧ Reads [0xED#8, 0xBB#8] .otdr
    ∧ Reads [0xED#8, 0x77#8] (.nopEd 0x77#8) := by
  and_intros <;> rfl

/-- Rows of tables `DD` and `FD` (R72), one word each. -/
theorem test_decode_xy_1 :
    Reads [0xDD#8, 0x34#8, 0xFE#8] (.incIdx .ix 0xFE#8)
    ∧ Reads [0xFD#8, 0x35#8, 0xFE#8] (.decIdx .iy 0xFE#8)
    ∧ Reads [0xDD#8, 0x36#8, 0xFE#8, 0x7F#8] (.ldIdxN .ix 0xFE#8 0x7F#8)
    ∧ Reads [0xFD#8, 0x46#8, 0xFE#8] (.ldRegIdx .b .iy 0xFE#8)
    ∧ Reads [0xDD#8, 0x73#8, 0xFE#8] (.ldIdxReg .ix 0xFE#8 .e)
    ∧ Reads [0xFD#8, 0x86#8, 0xFE#8] (.addIdx .iy 0xFE#8)
    ∧ Reads [0xDD#8, 0x8E#8, 0xFE#8] (.adcIdx .ix 0xFE#8)
    ∧ Reads [0xFD#8, 0x96#8, 0xFE#8] (.subIdx .iy 0xFE#8)
    ∧ Reads [0xDD#8, 0x9E#8, 0xFE#8] (.sbcIdx .ix 0xFE#8)
    ∧ Reads [0xFD#8, 0xA6#8, 0xFE#8] (.andIdx .iy 0xFE#8)
    ∧ Reads [0xDD#8, 0xAE#8, 0xFE#8] (.xorIdx .ix 0xFE#8)
    ∧ Reads [0xFD#8, 0xB6#8, 0xFE#8] (.orIdx .iy 0xFE#8)
    ∧ Reads [0xDD#8, 0xBE#8, 0xFE#8] (.cpIdx .ix 0xFE#8)
    ∧ Reads [0xFD#8, 0x29#8] (.addIiPp .iy .ii)
    ∧ Reads [0xDD#8, 0x21#8, 0x23#8, 0xC1#8] (.ldIiNn .ix 0xC123#16)
    ∧ Reads [0xFD#8, 0x22#8, 0x23#8, 0xC1#8] (.ldMemNnIi 0xC123#16 .iy)
    ∧ Reads [0xDD#8, 0x2A#8, 0x23#8, 0xC1#8] (.ldIiMemNn .ix 0xC123#16)
    ∧ Reads [0xFD#8, 0x23#8] (.incIi .iy)
    ∧ Reads [0xDD#8, 0x2B#8] (.decIi .ix)
    ∧ Reads [0xFD#8, 0xE1#8] (.popIi .iy)
    ∧ Reads [0xDD#8, 0xE3#8] (.exSpIi .ix)
    ∧ Reads [0xFD#8, 0xE5#8] (.pushIi .iy)
    ∧ Reads [0xDD#8, 0xE9#8] (.jpIi .ix)
    ∧ Reads [0xFD#8, 0xF9#8] (.ldSpIi .iy)
    ∧ Reads [0xDD#8, 0x24#8] (.incIih .ix)
    ∧ Reads [0xFD#8, 0x25#8] (.decIih .iy) := by
  and_intros <;> rfl

/-- Rows of tables `DD` and `FD` (R72), one word each. -/
theorem test_decode_xy_2 :
    Reads [0xDD#8, 0x26#8, 0x7F#8] (.ldIihN .ix 0x7F#8)
    ∧ Reads [0xFD#8, 0x2C#8] (.incIil .iy)
    ∧ Reads [0xDD#8, 0x2D#8] (.decIil .ix)
    ∧ Reads [0xFD#8, 0x2E#8, 0x7F#8] (.ldIilN .iy 0x7F#8)
    ∧ Reads [0xDD#8, 0x61#8] (.ldPP .ix .iih .c)
    ∧ Reads [0xFD#8, 0x84#8] (.addIih .iy)
    ∧ Reads [0xDD#8, 0x85#8] (.addIil .ix)
    ∧ Reads [0xFD#8, 0x8C#8] (.adcIih .iy)
    ∧ Reads [0xDD#8, 0x8D#8] (.adcIil .ix)
    ∧ Reads [0xFD#8, 0x94#8] (.subIih .iy)
    ∧ Reads [0xDD#8, 0x95#8] (.subIil .ix)
    ∧ Reads [0xFD#8, 0x9C#8] (.sbcIih .iy)
    ∧ Reads [0xDD#8, 0x9D#8] (.sbcIil .ix)
    ∧ Reads [0xFD#8, 0xA4#8] (.andIih .iy)
    ∧ Reads [0xDD#8, 0xA5#8] (.andIil .ix)
    ∧ Reads [0xFD#8, 0xAC#8] (.xorIih .iy)
    ∧ Reads [0xDD#8, 0xAD#8] (.xorIil .ix)
    ∧ Reads [0xFD#8, 0xB4#8] (.orIih .iy)
    ∧ Reads [0xDD#8, 0xB5#8] (.orIil .ix)
    ∧ Reads [0xFD#8, 0xBC#8] (.cpIih .iy)
    ∧ Reads [0xDD#8, 0xBD#8] (.cpIil .ix)
    ∧ Reads [0xFD#8, 0x06#8, 0x7F#8] (.npUnchanged .iy (.ldRegN .b 0x7F#8)) := by
  and_intros <;> rfl

/-- Rows of tables `DDCB` and `FDCB` (R74), one word each. -/
theorem test_decode_xycb_1 :
    Reads [0xDD#8, 0xCB#8, 0xFE#8, 0x06#8] (.rlcIdx .ix 0xFE#8)
    ∧ Reads [0xFD#8, 0xCB#8, 0xFE#8, 0x02#8] (.rlcIdxReg .iy 0xFE#8 .d)
    ∧ Reads [0xDD#8, 0xCB#8, 0xFE#8, 0x0E#8] (.rrcIdx .ix 0xFE#8)
    ∧ Reads [0xFD#8, 0xCB#8, 0xFE#8, 0x0D#8] (.rrcIdxReg .iy 0xFE#8 .l)
    ∧ Reads [0xDD#8, 0xCB#8, 0xFE#8, 0x16#8] (.rlIdx .ix 0xFE#8)
    ∧ Reads [0xFD#8, 0xCB#8, 0xFE#8, 0x17#8] (.rlIdxReg .iy 0xFE#8 .a)
    ∧ Reads [0xDD#8, 0xCB#8, 0xFE#8, 0x1E#8] (.rrIdx .ix 0xFE#8)
    ∧ Reads [0xFD#8, 0xCB#8, 0xFE#8, 0x18#8] (.rrIdxReg .iy 0xFE#8 .b)
    ∧ Reads [0xDD#8, 0xCB#8, 0xFE#8, 0x26#8] (.slaIdx .ix 0xFE#8)
    ∧ Reads [0xFD#8, 0xCB#8, 0xFE#8, 0x23#8] (.slaIdxReg .iy 0xFE#8 .e)
    ∧ Reads [0xDD#8, 0xCB#8, 0xFE#8, 0x2E#8] (.sraIdx .ix 0xFE#8)
    ∧ Reads [0xFD#8, 0xCB#8, 0xFE#8, 0x2A#8] (.sraIdxReg .iy 0xFE#8 .d)
    ∧ Reads [0xDD#8, 0xCB#8, 0xFE#8, 0x36#8] (.sllIdx .ix 0xFE#8)
    ∧ Reads [0xFD#8, 0xCB#8, 0xFE#8, 0x35#8] (.sllIdxReg .iy 0xFE#8 .l)
    ∧ Reads [0xDD#8, 0xCB#8, 0xFE#8, 0x3E#8] (.srlIdx .ix 0xFE#8)
    ∧ Reads [0xFD#8, 0xCB#8, 0xFE#8, 0x3F#8] (.srlIdxReg .iy 0xFE#8 .a)
    ∧ Reads [0xDD#8, 0xCB#8, 0xFE#8, 0x6B#8] (.bitIdx .ix 0xFE#8 5#3 3#3)
    ∧ Reads [0xFD#8, 0xCB#8, 0xFE#8, 0xAE#8] (.resIdx .iy 0xFE#8 5#3)
    ∧ Reads [0xDD#8, 0xCB#8, 0xFE#8, 0xA8#8] (.resIdxReg .ix 0xFE#8 5#3 .b)
    ∧ Reads [0xFD#8, 0xCB#8, 0xFE#8, 0xEE#8] (.setIdx .iy 0xFE#8 5#3)
    ∧ Reads [0xDD#8, 0xCB#8, 0xFE#8, 0xEB#8] (.setIdxReg .ix 0xFE#8 5#3 .e) := by
  and_intros <;> rfl

/-- The prefix bytes, each an entry of the table it is met in (R70, R71). -/
theorem test_decode_prefix_bytes :
    decodeIn .np [0xCB#8] = .ok (.prefixCb, [])
    ∧ decodeIn .np [0xDD#8] = .ok (.prefixDd, [])
    ∧ decodeIn .np [0xED#8] = .ok (.prefixEd, [])
    ∧ decodeIn .np [0xFD#8] = .ok (.prefixFd, [])
    ∧ decodeIn .fd [0xCB#8] = .ok (.prefixCbXy .iy, [])
    ∧ decodeIn .dd [0xDD#8] = .ok (.prefixDdXy .ix, [])
    ∧ decodeIn .fd [0xFD#8] = .ok (.prefixFdXy .iy, [])
    ∧ decodeIn .dd [0xED#8] = .ok (.prefixEdXy .ix, []) := by
  and_intros <;> rfl

/-- Every value of the field table `r` (R62), as destination and as source. -/
theorem test_decode_table_r :
    Reads [0x40#8] (.ldRegReg .b .b)
    ∧ Reads [0x49#8] (.ldRegReg .c .c)
    ∧ Reads [0x52#8] (.ldRegReg .d .d)
    ∧ Reads [0x5B#8] (.ldRegReg .e .e)
    ∧ Reads [0x64#8] (.ldRegReg .h .h)
    ∧ Reads [0x6D#8] (.ldRegReg .l .l)
    ∧ Reads [0x7F#8] (.ldRegReg .a .a) := by
  and_intros <;> rfl

/-- Every value of the field tables `rp` and `rp2` (R62). -/
theorem test_decode_table_rp :
    Reads [0x03#8] (.incSs .bc)
    ∧ Reads [0x13#8] (.incSs .de)
    ∧ Reads [0x23#8] (.incSs .hl)
    ∧ Reads [0x33#8] (.incSs .sp)
    ∧ Reads [0xC5#8] (.pushQq .bc)
    ∧ Reads [0xD5#8] (.pushQq .de)
    ∧ Reads [0xE5#8] (.pushQq .hl)
    ∧ Reads [0xF5#8] (.pushQq .af) := by
  and_intros <;> rfl

/-- Every value of the field table `cc` (R62). -/
theorem test_decode_table_cc :
    Reads [0xC0#8] (.retCc .nz)
    ∧ Reads [0xC8#8] (.retCc .z)
    ∧ Reads [0xD0#8] (.retCc .nc)
    ∧ Reads [0xD8#8] (.retCc .c)
    ∧ Reads [0xE0#8] (.retCc .po)
    ∧ Reads [0xE8#8] (.retCc .pe)
    ∧ Reads [0xF0#8] (.retCc .p)
    ∧ Reads [0xF8#8] (.retCc .m) := by
  and_intros <;> rfl

/-- `IIH` and `IIL` stand for values 4 and 5 of table `r` in tables `DD`/`FD`, and `II` for pair 2 (R72). -/
theorem test_decode_table_p :
    Reads [0xDD#8, 0x65#8] (.ldPP .ix .iih .iil)
    ∧ Reads [0xFD#8, 0x7C#8] (.ldPP .iy .a .iih)
    ∧ Reads [0xDD#8, 0x68#8] (.ldPP .ix .iil .b)
    ∧ Reads [0xFD#8, 0x29#8] (.addIiPp .iy .ii)
    ∧ Reads [0xDD#8, 0x39#8] (.addIiPp .ix .sp) := by
  and_intros <;> rfl

/-- Opcodes that tables `DD`/`FD` leave to table `NP` (R72 item 5). -/
theorem test_decode_kept_entries :
    Reads [0xDD#8, 0xEB#8] (.npUnchanged .ix .exDeHl)
    ∧ Reads [0xFD#8, 0x76#8] (.npUnchanged .iy .halt)
    ∧ Reads [0xDD#8, 0xCD#8, 0x00#8, 0x20#8] (.npUnchanged .ix (.call 0x2000#16))
    ∧ Reads [0xFD#8, 0x41#8] (.npUnchanged .iy (.ldRegReg .b .c)) := by
  and_intros <;> rfl

/-- A word that ends before its instruction does is no instruction. -/
theorem test_decode_truncated :
    decode [0x3E#8] = .error .truncated ∧ decode [0xCD#8, 0x00#8] = .error .truncated
      ∧ decode [0xED#8] = .error .truncated ∧ decode [0xDD#8, 0xCB#8, 0x05#8] = .error .truncated
      ∧ decode [] = .error .truncated := by
  and_intros <;> rfl

/-- Words numbered as the opcode table numbers them: bits 7..0 are the first byte; operand bytes beyond are zero. -/
theorem test_table_words :
    decodeTableWord 8 0x3E = some (.ldRegN .a 0x00#8) ∧ decodeTableWord 16 0x053E = some (.ldRegN .a 0x05#8)
      ∧ decodeTableWord 16 0x44ED = some (.neg 0#3) ∧ decodeTableWord 32 0xBEFECBFD = some (.resIdx .iy 0xFE#8 7#3)
      ∧ decodeTableWord 8 0xCB = some .prefixCb ∧ decodeTableWord 16 0xCBDD = some (.prefixCbXy .ix) := by
  and_intros <;> rfl

/-! ## Single instructions against the worked examples of spec/ -/

/-- The reset state with an instruction's bytes at `pc`. -/
def start (pc : Word) (bs : List Byte) : State := { State.reset.poke pc bs with pc := pc }

/-- A platform that changes nothing in a port access. -/
def quiet : IoEffect := { latchNmi := false, mi := .keep, stores := [] }

/-- The answer to the next read of any port, as `FlatPlatform` gives it (R6). -/
def answer (v : Byte) : ReadReply := { port := none, data := v, effect := quiet }

/-- `n` dispatch iterations: as many as the one instruction has (one more for each prefix byte). -/
def iterate : Nat → State → Option State
  | 0, s => some s
  | n + 1, s => match step s with
    | .next t => iterate n t
    | .fault _ | .refused _ => none

/-- What is seen after `n` iterations. -/
def after {α : Type} (n : Nat) (s : State) (see : State → α) : Option α := (iterate n s).map see

theorem test_R120 :
    after 1 { start 0x0100#16 [0x41#8] with bc := 0x0012#16 }
      (fun t => (t.bc, t.cycles))
      = some (0x1212#16, 4) := by
  decide

theorem test_R121 :
    after 1 (start 0x0100#16 [0x3E#8, 0x05#8])
      (fun t => (t.af, t.pc, t.cycles))
      = some (0x0500#16, 0x0102#16, 7) := by
  decide

theorem test_R122 :
    after 1 { (start 0x0100#16 [0x7E#8]).poke 0x8000#16 [0x5A#8] with hl := 0x8000#16 }
      (fun t => t.af)
      = some 0x5A00#16 := by
  decide

theorem test_R123 :
    after 1 { start 0x0100#16 [0x77#8] with hl := 0xC000#16, af := 0x9900#16 }
      (fun t => (t.read8 0xC000#16, t.cycles))
      = some (0x99#8, 7) := by
  decide

theorem test_R124 :
    after 1 { start 0x0100#16 [0x36#8, 0xFF#8] with hl := 0xC010#16 }
      (fun t => (t.read8 0xC010#16, t.cycles))
      = some (0xFF#8, 10) := by
  decide

theorem test_R125 :
    after 1 { (start 0x0100#16 [0x0A#8]).poke 0x1234#16 [0x77#8] with bc := 0x1234#16 }
      (fun t => t.af)
      = some 0x7700#16 := by
  decide

theorem test_R127 :
    after 1 ((start 0x0100#16 [0x3A#8, 0x00#8, 0xC0#8]).poke 0xC000#16 [0x42#8])
      (fun t => (t.af, t.cycles))
      = some (0x4200#16, 13) := by
  decide

theorem test_R129 :
    after 1 { start 0x0100#16 [0x12#8] with de := 0xC002#16, af := 0x2000#16 }
      (fun t => t.read8 0xC002#16)
      = some 0x20#8 := by
  decide

theorem test_R130 :
    after 1 { start 0x0100#16 [0x32#8, 0x34#8, 0xC2#8] with af := 0xAB00#16 }
      (fun t => t.read8 0xC234#16)
      = some 0xAB#8 := by
  decide

theorem test_R131 :
    after 2 { (start 0x0100#16 [0xDD#8, 0x46#8, 0xFE#8]).poke 0xC00E#16 [0x33#8] with ix := 0xC010#16 }
      (fun t => (t.bc, t.cycles))
      = some (0x3300#16, 19) := by
  decide

theorem test_R132 :
    after 2 { start 0x0100#16 [0xFD#8, 0x71#8, 0x02#8] with iy := 0xC100#16, bc := 0x005C#16 }
      (fun t => t.read8 0xC102#16)
      = some 0x5C#8 := by
  decide

theorem test_R133 :
    after 2 { start 0x0100#16 [0xDD#8, 0x36#8, 0x01#8, 0x7F#8] with ix := 0xC200#16 }
      (fun t => (t.read8 0xC201#16, t.cycles, t.pc))
      = some (0x7F#8, 19, 0x0104#16) := by
  decide

theorem test_R134 :
    after 2 { start 0x0100#16 [0xFD#8, 0x68#8] with iy := 0x1111#16, bc := 0x9A00#16 }
      (fun t => (t.iy, t.hl, t.cycles))
      = some (0x119A#16, 0x0000#16, 8) := by
  decide

theorem test_R135 :
    after 2 { start 0x0100#16 [0xDD#8, 0x26#8, 0x80#8] with ix := 0x0034#16 }
      (fun t => (t.ix, t.cycles))
      = some (0x8034#16, 11) := by
  decide

theorem test_R136 :
    after 2 { start 0x0100#16 [0xED#8, 0x57#8] with i := 0x80#8, iff2 := true, af := 0x0001#16 }
      (fun t => (t.af, t.cycles))
      = some (0x8085#16, 9) := by
  decide

theorem test_R137 :
    after 2 { start 0x0100#16 [0xED#8, 0x5F#8] with r := 0x10#8 }
      (fun t => t.af)
      = some 0x1100#16 := by
  decide

theorem test_R138 :
    after 2 { start 0x0100#16 [0xED#8, 0x47#8] with af := 0x4000#16 }
      (fun t => t.i)
      = some 0x40#8 := by
  decide

theorem test_R139 :
    after 3 { start 0x0100#16 [0xED#8, 0x4F#8, 0x00#8] with af := 0x8500#16 }
      (fun t => t.r)
      = some 0x86#8 := by
  decide

theorem test_R140 :
    after 1 (start 0x0100#16 [0x31#8, 0xF0#8, 0xDF#8])
      (fun t => (t.sp, t.cycles))
      = some (0xDFF0#16, 10) := by
  decide

theorem test_R141 :
    after 2 (start 0x0100#16 [0xDD#8, 0x21#8, 0x00#8, 0xC0#8])
      (fun t => (t.ix, t.cycles))
      = some (0xC000#16, 14) := by
  decide

theorem test_R142 :
    after 1 (((start 0x0100#16 [0x2A#8, 0x00#8, 0xC0#8]).poke 0xC000#16 [0x34#8]).poke 0xC001#16 [0x12#8])
      (fun t => (t.hl, t.cycles))
      = some (0x1234#16, 16) := by
  decide

theorem test_R143 :
    after 2 (((start 0x0100#16 [0xED#8, 0x7B#8, 0x00#8, 0xC0#8]).poke 0xC000#16 [0xF0#8]).poke 0xC001#16 [0xDF#8])
      (fun t => (t.sp, t.cycles))
      = some (0xDFF0#16, 20) := by
  decide

theorem test_R144 :
    after 2 (((start 0x0100#16 [0xFD#8, 0x2A#8, 0x10#8, 0xC0#8]).poke 0xC010#16 [0xCD#8]).poke 0xC011#16 [0xAB#8])
      (fun t => (t.iy, t.cycles))
      = some (0xABCD#16, 20) := by
  decide

theorem test_R145 :
    after 1 { start 0x0100#16 [0x22#8, 0x00#8, 0xC0#8] with hl := 0xBEEF#16 }
      (fun t => (t.read8 0xC000#16, t.read8 0xC001#16))
      = some (0xEF#8, 0xBE#8) := by
  decide

theorem test_R146 :
    after 2 { start 0x0100#16 [0xED#8, 0x73#8, 0x20#8, 0xC0#8] with sp := 0xDFF0#16 }
      (fun t => (t.read8 0xC020#16, t.read8 0xC021#16))
      = some (0xF0#8, 0xDF#8) := by
  decide

theorem test_R147 :
    after 2 { start 0x0100#16 [0xDD#8, 0x22#8, 0x30#8, 0xC0#8] with ix := 0x1234#16 }
      (fun t => (t.read8 0xC030#16, t.read8 0xC031#16))
      = some (0x34#8, 0x12#8) := by
  decide

theorem test_R149 :
    after 2 { start 0x0100#16 [0xFD#8, 0xF9#8] with iy := 0xD000#16 }
      (fun t => (t.sp, t.cycles))
      = some (0xD000#16, 10) := by
  decide

theorem test_R150 :
    after 1 { start 0x0100#16 [0xC5#8] with bc := 0x1234#16, sp := 0xDFF0#16 }
      (fun t => (t.read8 0xDFEF#16, t.read8 0xDFEE#16, t.sp, t.cycles))
      = some (0x12#8, 0x34#8, 0xDFEE#16, 11) := by
  decide

theorem test_R151 :
    after 2 { start 0x0100#16 [0xDD#8, 0xE5#8] with ix := 0xABCD#16, sp := 0xE000#16 }
      (fun t => (t.read8 0xDFFF#16, t.read8 0xDFFE#16, t.sp, t.cycles))
      = some (0xAB#8, 0xCD#8, 0xDFFE#16, 15) := by
  decide

theorem test_R152 :
    after 1 { ((start 0x0100#16 [0xF1#8]).poke 0xDFEE#16 [0xD7#8]).poke 0xDFEF#16 [0x12#8] with sp := 0xDFEE#16 }
      (fun t => (t.af, t.sp))
      = some (0x12D7#16, 0xDFF0#16) := by
  decide

theorem test_R153 :
    after 2 { ((start 0x0100#16 [0xFD#8, 0xE1#8]).poke 0xDFFE#16 [0xCD#8]).poke 0xDFFF#16 [0xAB#8] with sp := 0xDFFE#16 }
      (fun t => (t.iy, t.sp, t.cycles))
      = some (0xABCD#16, 0xE000#16, 14) := by
  decide

theorem test_R160 :
    after 1 { start 0x0100#16 [0xEB#8] with de := 0x1111#16, hl := 0x2222#16 }
      (fun t => (t.de, t.hl))
      = some (0x2222#16, 0x1111#16) := by
  decide

theorem test_R165 :
    after 1 { start 0x0100#16 [0x08#8] with af := 0x1200#16, af' := 0x34FF#16 }
      (fun t => (t.af, t.af'))
      = some (0x34FF#16, 0x1200#16) := by
  decide

theorem test_R166 :
    after 1 { start 0x0100#16 [0xD9#8] with bc := 0x0001#16, de := 0x0002#16, hl := 0x0003#16, bc' := 0x0004#16, de' := 0x0005#16, hl' := 0x0006#16 }
      (fun t => (t.bc, t.de, t.hl, t.bc', t.de', t.hl'))
      = some (0x0004#16, 0x0005#16, 0x0006#16, 0x0001#16, 0x0002#16, 0x0003#16) := by
  decide

theorem test_R167 :
    after 1 { ((start 0x0100#16 [0xE3#8]).poke 0xDFF0#16 [0x11#8]).poke 0xDFF1#16 [0x22#8] with sp := 0xDFF0#16, hl := 0x7012#16 }
      (fun t => (t.hl, t.read8 0xDFF0#16, t.read8 0xDFF1#16, t.cycles))
      = some (0x2211#16, 0x12#8, 0x70#8, 19) := by
  decide

theorem test_R168 :
    after 2 { ((start 0x0100#16 [0xDD#8, 0xE3#8]).poke 0xDFF0#16 [0x88#8]).poke 0xDFF1#16 [0x39#8] with sp := 0xDFF0#16, ix := 0x0001#16 }
      (fun t => (t.ix, t.read8 0xDFF0#16, t.read8 0xDFF1#16, t.sp, t.cycles))
      = some (0x3988#16, 0x01#8, 0x00#8, 0xDFF0#16, 23) := by
  decide

theorem test_R182 :
    after 1 { start 0x0100#16 [0xC6#8, 0x03#8] with af := 0x0500#16 }
      (fun t => (t.af, t.cycles))
      = some (0x0808#16, 7) := by
  decide

theorem test_R183 :
    after 1 { start 0x0100#16 [0xCE#8, 0x00#8] with af := 0x0F01#16 }
      (fun t => t.af)
      = some 0x1010#16 := by
  decide

theorem test_R184 : after 1 (start 0x0100#16 [0xD6#8, 0x01#8]) (fun t => t.af) = some 0xFFBB#16 := by
  decide

theorem test_R185 :
    after 1 { start 0x0100#16 [0xDE#8, 0x00#8] with af := 0x0001#16 }
      (fun t => t.af)
      = some 0xFFBB#16 := by
  decide

theorem test_R186 :
    after 1 { start 0x0100#16 [0xE6#8, 0x3C#8] with af := 0xF000#16 }
      (fun t => t.af)
      = some 0x3034#16 := by
  decide

theorem test_R187 : after 1 { start 0x0100#16 [0xAF#8] with af := 0x5A00#16 } (fun t => t.af) = some 0x0044#16 := by
  decide

theorem test_R188 :
    after 1 { start 0x0100#16 [0xF6#8, 0x01#8] with af := 0x8000#16 }
      (fun t => t.af)
      = some 0x8184#16 := by
  decide

theorem test_R189 :
    after 1 { start 0x0100#16 [0xFE#8, 0x28#8] with af := 0x4000#16 }
      (fun t => t.af)
      = some 0x403A#16 := by
  decide

theorem test_R191 : after 1 { start 0x0100#16 [0x3C#8] with af := 0x7F01#16 } (fun t => t.af) = some 0x8095#16 := by
  decide

theorem test_R191_mem :
    after 1 { (start 0x0100#16 [0x34#8]).poke 0xC000#16 [0xFF#8] with hl := 0xC000#16 }
      (fun t => (t.read8 0xC000#16, t.af, t.cycles))
      = some (0x00#8, 0x0050#16, 11) := by
  decide

theorem test_R192 :
    after 2 { start 0x0100#16 [0xDD#8, 0x35#8, 0x00#8] with ix := 0xC000#16, af := 0x0001#16 }
      (fun t => (t.read8 0xC000#16, t.af, t.cycles))
      = some (0xFF#8, 0x00BB#16, 23) := by
  decide

theorem test_R193 : after 1 { start 0x0100#16 [0x27#8] with af := 0x3C28#16 } (fun t => t.af) = some 0x4214#16 := by
  decide

theorem test_R193_after_sub :
    after 1 { start 0x0100#16 [0x27#8] with af := 0x2D3A#16 }
      (fun t => t.af)
      = some 0x2726#16 := by
  decide

theorem test_R194 : after 1 { start 0x0100#16 [0x2F#8] with af := 0x5A00#16 } (fun t => t.af) = some 0xA532#16 := by
  decide

theorem test_R195 :
    after 2 { start 0x0100#16 [0xED#8, 0x44#8] with af := 0x0100#16 }
      (fun t => (t.af, t.cycles))
      = some (0xFFBB#16, 8) := by
  decide

theorem test_R196 : after 1 { start 0x0100#16 [0x37#8] with af := 0x00FF#16 } (fun t => t.af) = some 0x00C5#16 := by
  decide

theorem test_R197 : after 1 { start 0x0100#16 [0x3F#8] with af := 0x0001#16 } (fun t => t.af) = some 0x0010#16 := by
  decide

theorem test_R220 :
    after 1 { start 0x0100#16 [0x29#8] with hl := 0x8000#16, af := 0x00C4#16 }
      (fun t => (t.hl, t.af, t.cycles))
      = some (0x0000#16, 0x00C5#16, 11) := by
  decide

theorem test_R221 :
    after 2 { start 0x0100#16 [0xDD#8, 0x09#8] with ix := 0x1234#16, bc := 0x1111#16 }
      (fun t => (t.ix, t.af, t.cycles))
      = some (0x2345#16, 0x0020#16, 15) := by
  decide

theorem test_R222 :
    after 2 { start 0x0100#16 [0xED#8, 0x4A#8] with hl := 0x7FFF#16, af := 0x0001#16 }
      (fun t => (t.hl, t.af, t.cycles))
      = some (0x8000#16, 0x0094#16, 15) := by
  decide

theorem test_R223 :
    after 2 { start 0x0100#16 [0xED#8, 0x52#8] with hl := 0x8000#16, de := 0x0001#16 }
      (fun t => (t.hl, t.af))
      = some (0x7FFF#16, 0x003E#16) := by
  decide

theorem test_R224 :
    after 1 { start 0x0100#16 [0x03#8] with bc := 0xFFFF#16 }
      (fun t => (t.bc, t.af, t.cycles))
      = some (0x0000#16, 0x0000#16, 6) := by
  decide

theorem test_R227 :
    after 2 { start 0x0100#16 [0xFD#8, 0x2B#8] with iy := 0x0100#16 }
      (fun t => (t.iy, t.cycles))
      = some (0x00FF#16, 10) := by
  decide

theorem test_R240 : after 1 { start 0x0100#16 [0x07#8] with af := 0x14D7#16 } (fun t => t.af) = some 0x28EC#16 := by
  decide

theorem test_R241 : after 1 { start 0x0100#16 [0x0F#8] with af := 0x0100#16 } (fun t => t.af) = some 0x8001#16 := by
  decide

theorem test_R242 : after 1 { start 0x0100#16 [0x17#8] with af := 0x8000#16 } (fun t => t.af) = some 0x0001#16 := by
  decide

theorem test_R243 : after 1 { start 0x0100#16 [0x1F#8] with af := 0x0101#16 } (fun t => t.af) = some 0x8001#16 := by
  decide

theorem test_R246 :
    after 3 { (start 0x0100#16 [0xDD#8, 0xCB#8, 0x05#8, 0x00#8]).poke 0xC005#16 [0x81#8] with ix := 0xC000#16 }
      (fun t => (t.read8 0xC005#16, t.bc, t.af, t.cycles))
      = some (0x03#8, 0x0300#16, 0x0005#16, 23) := by
  decide

theorem test_R247 :
    after 2 { start 0x0100#16 [0xCB#8, 0x09#8] with bc := 0x0001#16 }
      (fun t => (t.bc, t.af, t.cycles))
      = some (0x0080#16, 0x0081#16, 8) := by
  decide

theorem test_R248 :
    after 2 { start 0x0100#16 [0xCB#8, 0x12#8] with de := 0x8000#16 }
      (fun t => (t.de, t.af))
      = some (0x0000#16, 0x0045#16) := by
  decide

theorem test_R249 :
    after 2 { start 0x0100#16 [0xCB#8, 0x1B#8] with af := 0x0001#16 }
      (fun t => (t.de, t.af))
      = some (0x0080#16, 0x0080#16) := by
  decide

theorem test_R250 :
    after 2 { start 0x0100#16 [0xCB#8, 0x24#8] with hl := 0xC000#16 }
      (fun t => (t.hl, t.af))
      = some (0x8000#16, 0x0081#16) := by
  decide

theorem test_R251 :
    after 2 { start 0x0100#16 [0xCB#8, 0x2D#8] with hl := 0x0081#16 }
      (fun t => (t.hl, t.af))
      = some (0x00C0#16, 0x0085#16) := by
  decide

theorem test_R252 :
    after 2 { start 0x0100#16 [0xCB#8, 0x37#8] with af := 0x8000#16 }
      (fun t => t.af)
      = some 0x0101#16 := by
  decide

theorem test_R253 :
    after 2 { start 0x0100#16 [0xCB#8, 0x3F#8] with af := 0xFF00#16 }
      (fun t => t.af)
      = some 0x7F29#16 := by
  decide

theorem test_R254 :
    after 2 { (start 0x0100#16 [0xED#8, 0x6F#8]).poke 0xC000#16 [0x31#8] with af := 0x7A01#16, hl := 0xC000#16 }
      (fun t => (t.read8 0xC000#16, t.af, t.cycles))
      = some (0x1A#8, 0x7321#16, 18) := by
  decide

theorem test_R255 :
    after 2 { (start 0x0100#16 [0xED#8, 0x67#8]).poke 0xC000#16 [0x20#8] with af := 0x8400#16, hl := 0xC000#16 }
      (fun t => (t.read8 0xC000#16, t.af))
      = some (0x42#8, 0x8080#16) := by
  decide

theorem test_R270 :
    after 2 { start 0x0100#16 [0xCB#8, 0x7F#8] with af := 0x8000#16 }
      (fun t => t.af)
      = some 0x8090#16 := by
  decide

theorem test_R272 :
    after 3 { (start 0x0100#16 [0xFD#8, 0xCB#8, 0xFF#8, 0x46#8]).poke 0xC000#16 [0xFE#8] with iy := 0xC001#16 }
      (fun t => (t.af, t.cycles))
      = some (0x0054#16, 20) := by
  decide

theorem test_R273 :
    after 2 { start 0x0100#16 [0xCB#8, 0xF8#8] with bc := 0x0100#16 }
      (fun t => t.bc)
      = some 0x8100#16 := by
  decide

theorem test_R274 :
    after 2 { (start 0x0100#16 [0xCB#8, 0xDE#8]).poke 0xC000#16 [0x10#8] with hl := 0xC000#16 }
      (fun t => (t.read8 0xC000#16, t.cycles))
      = some (0x18#8, 15) := by
  decide

theorem test_R276 :
    after 3 { (start 0x0100#16 [0xDD#8, 0xCB#8, 0x03#8, 0xC0#8]).poke 0xC003#16 [0x80#8] with ix := 0xC000#16, bc := 0x5500#16 }
      (fun t => (t.read8 0xC003#16, t.bc))
      = some (0x81#8, 0x8100#16) := by
  decide

theorem test_R277 :
    after 2 { start 0x0100#16 [0xCB#8, 0xB8#8] with bc := 0x8000#16, af := 0x00FF#16 }
      (fun t => (t.bc, t.af))
      = some (0x0000#16, 0x00FF#16) := by
  decide

theorem test_R279 :
    after 3 { (start 0x0100#16 [0xFD#8, 0xCB#8, 0xFE#8, 0xBE#8]).poke 0xC000#16 [0xFF#8] with iy := 0xC002#16 }
      (fun t => (t.read8 0xC000#16, t.cycles))
      = some (0x7F#8, 23) := by
  decide

theorem test_R292 :
    after 2 { (start 0x0100#16 [0xED#8, 0xA0#8]).poke 0xC000#16 [0x5A#8] with hl := 0xC000#16, de := 0xC100#16, bc := 0x0002#16 }
      (fun t => (t.read8 0xC100#16, t.hl, t.de, t.bc, t.af, t.cycles))
      = some (0x5A#8, 0xC001#16, 0xC101#16, 0x0001#16, 0x002C#16, 16) := by
  decide

theorem test_R293 :
    after 2 { (start 0x0100#16 [0xED#8, 0xA8#8]).poke 0xC001#16 [0x02#8] with hl := 0xC001#16, de := 0xC101#16, bc := 0x0001#16, af := 0x0001#16 }
      (fun t => (t.read8 0xC101#16, t.hl, t.de, t.bc, t.af))
      = some (0x02#8, 0xC000#16, 0xC100#16, 0x0000#16, 0x0021#16) := by
  decide

theorem test_R294 :
    after 2 { (start 0x0100#16 [0xED#8, 0xB0#8]).poke 0xC000#16 [0x11#8] with hl := 0xC000#16, de := 0xC100#16, bc := 0x0002#16 }
      (fun t => (t.pc, t.bc, t.cycles))
      = some (0x0100#16, 0x0001#16, 21) := by
  decide

theorem test_R296 :
    after 2 { (start 0x0100#16 [0xED#8, 0xA1#8]).poke 0xC000#16 [0x01#8] with af := 0x1000#16, hl := 0xC000#16, bc := 0x0005#16 }
      (fun t => (t.bc, t.af))
      = some (0x0004#16, 0x103E#16) := by
  decide

theorem test_R297 :
    after 2 { (start 0x0100#16 [0xED#8, 0xA9#8]).poke 0xC000#16 [0x01#8] with hl := 0xC000#16, bc := 0x0002#16 }
      (fun t => (t.hl, t.bc, t.af))
      = some (0xBFFF#16, 0x0001#16, 0x00BE#16) := by
  decide

theorem test_R298 :
    after 2 { (start 0x0100#16 [0xED#8, 0xB1#8]).poke 0xC002#16 [0x33#8] with af := 0x3300#16, hl := 0xC002#16, bc := 0x0002#16 }
      (fun t => (t.hl, t.bc, t.cycles, t.pc))
      = some (0xC003#16, 0x0001#16, 16, 0x0102#16) := by
  decide

theorem test_R300 :
    after 2 { start 0x0100#16 [0xED#8, 0xA2#8] with bc := 0x02BE#16, hl := 0xC000#16, ioIn := [answer 0x80#8] }
      (fun t => (t.read8 0xC000#16, t.hl, t.bc, t.af))
      = some (0x80#8, 0xC001#16, 0x01BE#16, 0x0017#16) := by
  decide

theorem test_R301 :
    after 2 { start 0x0100#16 [0xED#8, 0xAA#8] with bc := 0x0100#16, hl := 0xC000#16, ioIn := [answer 0x01#8] }
      (fun t => (t.read8 0xC000#16, t.hl, t.bc, t.af))
      = some (0x01#8, 0xBFFF#16, 0x0000#16, 0x0055#16) := by
  decide

theorem test_R304 :
    after 2 { (start 0x0100#16 [0xED#8, 0xA3#8]).poke 0xC000#16 [0x7F#8] with bc := 0x01BE#16, hl := 0xC000#16 }
      (fun t => (t.bc, t.hl, t.af, t.ioLog))
      = some (0x00BE#16, 0xC001#16, 0x0044#16, [.write 0x00BE#16 0x7F#8]) := by
  decide

theorem test_R305 :
    after 2 { (start 0x0100#16 [0xED#8, 0xAB#8]).poke 0xC100#16 [0x80#8] with bc := 0x02BF#16, hl := 0xC100#16 }
      (fun t => (t.bc, t.hl, t.af, t.ioLog))
      = some (0x01BF#16, 0xC0FF#16, 0x0017#16, [.write 0x01BF#16 0x80#8]) := by
  decide

theorem test_R306 :
    after 2 { (start 0x0100#16 [0xED#8, 0xB3#8]).poke 0xC000#16 [0x01#8] with bc := 0x03BE#16, hl := 0xC000#16 }
      (fun t => (t.bc, t.pc, t.cycles, t.ioLog))
      = some (0x02BE#16, 0x0100#16, 21, [.write 0x02BE#16 0x01#8]) := by
  decide

theorem test_R320 :
    after 1 (start 0x0100#16 [0xC3#8, 0x00#8, 0xC0#8])
      (fun t => (t.pc, t.cycles))
      = some (0xC000#16, 10) := by
  decide

theorem test_R321 :
    after 1 { start 0x0100#16 [0xCA#8, 0x34#8, 0x12#8] with af := 0x0040#16 }
      (fun t => t.pc)
      = some 0x1234#16 := by
  decide

theorem test_R322 :
    after 1 (start 0x0100#16 [0x18#8, 0x80#8])
      (fun t => (t.pc, t.cycles))
      = some (0x0082#16, 12) := by
  decide

theorem test_R324 :
    after 1 (start 0x0104#16 [0x20#8, 0xFC#8])
      (fun t => (t.pc, t.cycles))
      = some (0x0102#16, 12) := by
  decide

theorem test_R325 :
    after 1 { start 0x0100#16 [0x10#8, 0xFE#8] with bc := 0x0300#16 }
      (fun t => (t.bc, t.pc, t.cycles))
      = some (0x0200#16, 0x0100#16, 13) := by
  decide

theorem test_R326 : after 1 { start 0x0100#16 [0xE9#8] with hl := 0x4000#16 } (fun t => t.pc) = some 0x4000#16 := by
  decide

theorem test_R327 :
    after 2 { start 0x0100#16 [0xFD#8, 0xE9#8] with iy := 0x1234#16 }
      (fun t => (t.pc, t.cycles))
      = some (0x1234#16, 8) := by
  decide

theorem test_R330 :
    after 1 { start 0x0100#16 [0xCD#8, 0x00#8, 0x20#8] with sp := 0xDFF0#16 }
      (fun t => (t.pc, t.sp, t.read8 0xDFEE#16, t.read8 0xDFEF#16, t.cycles))
      = some (0x2000#16, 0xDFEE#16, 0x03#8, 0x01#8, 17) := by
  decide

theorem test_R331 :
    after 1 { start 0x0100#16 [0xDC#8, 0x00#8, 0x20#8] with sp := 0xDFF0#16 }
      (fun t => (t.pc, t.sp, t.cycles))
      = some (0x0103#16, 0xDFF0#16, 10) := by
  decide

theorem test_R332 :
    after 1 { ((start 0x0100#16 [0xC9#8]).poke 0xDFEE#16 [0x03#8]).poke 0xDFEF#16 [0x01#8] with sp := 0xDFEE#16 }
      (fun t => (t.pc, t.sp, t.cycles))
      = some (0x0103#16, 0xDFF0#16, 10) := by
  decide

theorem test_R333 :
    after 1 { ((start 0x0100#16 [0xC8#8]).poke 0xDFEE#16 [0x03#8]).poke 0xDFEF#16 [0x01#8] with af := 0x0040#16, sp := 0xDFEE#16 }
      (fun t => (t.pc, t.cycles))
      = some (0x0103#16, 11) := by
  decide

theorem test_R334 :
    after 2 { ((start 0x0100#16 [0xED#8, 0x45#8]).poke 0xDFEE#16 [0x03#8]).poke 0xDFEF#16 [0x01#8] with iff2 := true, sp := 0xDFEE#16 }
      (fun t => (t.pc, t.sp, t.iff1, t.iff2))
      = some (0x0103#16, 0xDFF0#16, true, true) := by
  decide

theorem test_R340 :
    after 1 { start 0x1234#16 [0xFF#8] with sp := 0xE000#16 }
      (fun t => (t.pc, t.sp, t.read8 0xDFFE#16, t.read8 0xDFFF#16))
      = some (0x0038#16, 0xDFFE#16, 0x35#8, 0x12#8) := by
  decide

theorem test_R351 :
    after 1 { start 0x0100#16 [0xDB#8, 0x7E#8] with af := 0x1200#16, ioIn := [answer 0xB0#8] }
      (fun t => (t.af, t.ioLog))
      = some (0xB000#16, [.read 0x127E#16 0xB0#8]) := by
  decide

theorem test_R352 :
    after 2 { start 0x0100#16 [0xED#8, 0x78#8] with bc := 0x10DC#16, af := 0x0001#16, ioIn := [answer 0x00#8] }
      (fun t => (t.af, t.ioLog))
      = some (0x0045#16, [.read 0x10DC#16 0x00#8]) := by
  decide

theorem test_R353 :
    after 2 { start 0x0100#16 [0xED#8, 0x70#8] with ioIn := [answer 0x80#8] }
      (fun t => (t.af, t.bc))
      = some (0x0080#16, 0x0000#16) := by
  decide

theorem test_R354 :
    after 1 { start 0x0100#16 [0xD3#8, 0xBF#8] with af := 0x8100#16 }
      (fun t => (t.ioLog, t.cycles))
      = some ([.write 0x81BF#16 0x81#8], 11) := by
  decide

theorem test_R355 :
    after 2 { start 0x0100#16 [0xED#8, 0x79#8] with bc := 0x00BE#16, af := 0x5500#16 }
      (fun t => t.ioLog)
      = some [.write 0x00BE#16 0x55#8] := by
  decide

theorem test_R356 :
    after 2 { start 0x0100#16 [0xED#8, 0x71#8] with bc := 0x00BF#16 }
      (fun t => t.ioLog)
      = some [.write 0x00BF#16 0x00#8] := by
  decide

theorem test_R359 :
    after 1 (start 0x0010#16 [0x76#8])
      (fun t => (t.pc, t.halted, t.pfx, t.cycles))
      = some (0x0011#16, true, .halt, 4) := by
  decide

theorem test_R365 :
    after 2 (start 0x0100#16 [0xED#8, 0x00#8])
      (fun t => (t.pc, t.cycles, t.r))
      = some (0x0102#16, 8, 0x01#8) := by
  decide

/-- R271: the six fixed flags of `BIT 3,(HL)`; `Y` and `X` are free. -/
theorem test_R271 :
    ∃ t, exec (.bitMem 3#3) { State.reset.poke 0xC000#16 [0x08#8] with hl := 0xC000#16, af := 0x0001#16 } = .next t
      ∧ t.getF &&& 0xD7#8 = 0x11#8 ∧ t.draws = 1 := by
  refine ⟨_, rfl, ?_, rfl⟩
  show State.getF (State.setF _ _) &&& _ = _
  rw [State.getF_setF]
  have free : ∀ y x : Bool, bitFlags 3#3 true y x 0x01#8 &&& 0xD7#8 = 0x11#8 := by decide
  exact free _ _

/-! ## The platform at a port (00_scope.md R6, 20_memory.md R47) -/

/-- A read takes the reply for its own port; the reply for another port stays. -/
theorem test_R6_read_by_port :
    let other : ReadReply := { port := some 0x00BE#16, data := 0x11#8, effect := quiet }
    after 1 { start 0x0100#16 [0xDB#8, 0x7E#8] with
        af := 0x1200#16, ioIn := [other, { port := some 0x127E#16, data := 0xB0#8, effect := quiet }, answer 0x22#8] }
      (fun t => (t.getA, t.ioIn)) = some (0xB0#8, [other, answer 0x22#8]) := by
  decide

/-- A write takes the reply for its port and byte, uses up no answer of a read, and the platform may change memory and the
maskable line in it. -/
theorem test_R6_write_effect :
    let zero : WriteReply := { port := some 0x81BF#16, data := some 0x00#8, effect := quiet }
    let bank : IoEffect := { latchNmi := false, mi := .raise 0x10#8, stores := [(0xC000#16, 0x55#8), (0xC000#16, 0x66#8)] }
    after 1 { start 0x0100#16 [0xD3#8, 0xBF#8] with
        af := 0x8100#16, ioIn := [answer 0x22#8], ioOut := [zero, { port := none, data := some 0x81#8, effect := bank }] }
      (fun t => ((t.read8 0xC000#16, t.reqMi), t.ioIn, t.ioOut))
      = some ((0x66#8, some 0x10#8), [answer 0x22#8], [zero]) := by
  decide

/-! ## Interrupts and the host interface (60_exceptions.md, 48_io_cpu_control.md R361) -/

/-- A core at a boundary with a check due. -/
def due : State := { State.reset with pc := 0x1234#16, sp := 0xE000#16, istat := .check, iff1 := true, iff2 := true }

theorem test_R387_nmi :
    after 1 { due with reqNmi := true, r := 0xFF#8 }
      (fun t => (t.pc, t.sp, t.read16 0xDFFE#16, t.cycles))
      = some (0x0066#16, 0xDFFE#16, 0x1234#16, 11)
    ∧ after 1 { due with reqNmi := true, r := 0xFF#8 } (fun t => (t.iff1, t.iff2, t.r, t.istat))
      = some (false, true, 0x80#8, .noCheck) := by
  decide

theorem test_R390_mode_1 :
    after 1 { due with reqMi := some 0xFF#8 } (fun t => ((t.pc, t.sp, t.cycles), t.iff1, t.iff2, t.reqMi))
      = some ((0x0038#16, 0xDFFE#16, 13), false, false, some 0xFF#8) := by
  decide

theorem test_R391_mode_2 :
    after 1 { due with reqMi := some 0x10#8, im := .im2, i := 0x40#8 } (fun t => (t.pc, t.sp, t.cycles))
      = some (0x4010#16, 0xDFFE#16, 19) := by
  decide

theorem test_R392_mode_0 : step { due with reqMi := some 0xFF#8, im := .im0 } = .fault .im0Service := by
  rfl

/-- R361: the example of the `EI` window. -/
theorem test_R361 :
    after 3 { start 0x0000#16 [0xFB#8, 0x00#8, 0x00#8] with reqMi := some 0xFF#8 }
      (fun t => (t.pc, t.cycles, t.read16 0xFFFE#16)) = some (0x0038#16, 21, 0x0002#16) := by
  decide

theorem test_R93_halt_spins :
    after 1 { State.reset with pfx := .halt, halted := true, cycles := 10, target := 99 } (fun t => (t.cycles, t.pfx))
      = some (99, .halt) := by
  decide

/-! ## The very next step runs a placed word -/

theorem test_withFetchWord_runs :
    after 1 (State.reset.withFetchWord 16 0x053E) (fun t => (t.getA, t.pc)) = some (0x05#8, 0x0002#16)
      ∧ after 1 (State.reset.withFetchWord 32 0xBEFECBFD) (fun t => (t.read8 0xFFFE#16, t.pc))
        = some (0x00#8, 0x0004#16) := by
  decide

/-! ## Witnesses: states and operands that meet the statements' hypotheses -/

/-- Statements about well-formed instructions (DecodeOfEncode, EveryInstructionCompletes) and the clause for rows that are
instructions of their own. -/
theorem wit_well_formed : WellFormed (.callCc .pe 0xFFFF#16) ∧ isPrefixRow (.callCc .pe 0xFFFF#16) = false := by decide

/-- StepRunsDecodedInstruction, table `NP`: a boundary with no check due, and the longest and the shortest entry. -/
theorem wit_step_np :
    let s := start 0xFFFF#16 [0xCD#8, 0x34#8, 0x12#8]
    s.pfx = .noPrefix ∧ ¬ CheckDue s
      ∧ decodeIn .np [s.read8 s.pc, s.read8 (s.pc + 1#16), s.read8 (s.pc + 2#16)] = .ok (.call 0x1234#16, []) := by
  refine ⟨rfl, ?_, rfl⟩
  rintro (h | ⟨n, h, -⟩) <;> cases h

/-- StepRunsDecodedInstruction, the six tables in the middle of an instruction. -/
theorem wit_step_prefixed :
    let s := start 0x0000#16 [0x06#8, 0x46#8, 0x00#8]
    let bytes := [s.read8 s.pc, s.read8 (s.pc + 1#16), s.read8 (s.pc + 2#16)]
    ({ s with pfx := .cb }.pfx = .cb ∧ decodeIn .cb bytes = .ok (.rlcMem, [0x46#8, 0x00#8]))
      ∧ ({ s with pfx := .ed }.pfx = .ed ∧ decodeIn .ed bytes = .ok (.nopEd 0x06#8, [0x46#8, 0x00#8]))
      ∧ ({ s with pfx := .dd }.pfx = .dd
          ∧ decodeIn .dd bytes = .ok (.npUnchanged .ix (.ldRegN .b 0x46#8), [0x00#8]))
      ∧ ({ s with pfx := .fd }.pfx = .fd
          ∧ decodeIn .fd bytes = .ok (.npUnchanged .iy (.ldRegN .b 0x46#8), [0x00#8]))
      ∧ ({ s with pfx := .ddcb }.pfx = .ddcb
          ∧ decodeIn .ddcb bytes = .ok (.bitIdx .ix 0x06#8 0#3 6#3, [0x00#8]))
      ∧ ({ s with pfx := .fdcb }.pfx = .fdcb
          ∧ decodeIn .fdcb bytes = .ok (.bitIdx .iy 0x06#8 0#3 6#3, [0x00#8])) := by
  and_intros <;> rfl

/-- DecodeStateIsResolved, and every statement about a next state of `step` (InvariantIsKept, RefreshCounter, CyclesOfAStep):
each decode state in the middle of an instruction has a next state. -/
theorem wit_decode_states :
    [Pfx.cb, .ed, .dd, .fd, .ddcb, .fdcb].all
      (fun p => (after 1 { start 0x0000#16 [0x06#8] with pfx := p } (fun t => t.pfx)) == some .noPrefix) = true := by
  decide

/-- DecodeStateIsResolved: a `DD` followed by `CB` leads on to `DDCB`, so the clauses do not hold for want of cases. -/
theorem wit_decode_state_ddcb :
    after 1 { start 0x0000#16 [0xCB#8] with pfx := .dd } (fun t => t.pfx) = some .ddcb := by
  decide

/-- NmiIsAccepted, with both latches off and mode 0. -/
theorem wit_nmi :
    let s := { due with reqNmi := true, iff1 := false, iff2 := false, im := .im0 }
    AtBoundary s ∧ CheckDue s ∧ s.reqNmi = true :=
  ⟨.inl rfl, .inl rfl, rfl⟩

/-- MaskableInterrupts and StopsOnlyInMode0: a halted core in each mode with an asserted request, by an `EI` just past its
window. -/
theorem wit_maskable (m : IntMode) :
    let s := { due with pfx := .halt, halted := true, istat := .ei 8, cycles := 9, reqMi := some 0x00#8, im := m }
    AtBoundary s ∧ CheckDue s ∧ s.reqNmi = false ∧ s.reqMi = some 0x00#8 ∧ s.iff1 = true ∧ s.im = m :=
  ⟨.inr rfl, .inr ⟨8, rfl, Nat.lt_succ_self 8⟩, rfl, rfl, rfl, rfl⟩

/-- MaskableInterrupts, the clause that accepts nothing: no request, and a request that is masked. -/
theorem wit_not_accepted :
    (AtBoundary due ∧ CheckDue due ∧ due.reqNmi = false ∧ due.reqMi = none)
      ∧ (let s := { due with iff1 := false, reqMi := some 0xFF#8 }
        AtBoundary s ∧ CheckDue s ∧ s.reqNmi = false ∧ s.iff1 = false) :=
  ⟨⟨.inl rfl, .inl rfl, rfl, rfl⟩, .inl rfl, .inl rfl, rfl, rfl⟩

/-- StopsOnlyInMode0: the stop happens. -/
theorem wit_mode_0_stop : step { due with reqMi := some 0x00#8, im := .im0 } = .fault .im0Service := rfl

/-- EiWindow: an `EI` inside an earlier `EI`'s window, and, for its last clause, the next instruction completes at a
boundary and is no `EI`. -/
theorem wit_ei :
    let s := { start 0x0000#16 [0xFB#8, 0x00#8] with istat := .ei 5, cycles := 5 }
    s.pfx = .noPrefix ∧ ¬ CheckDue s ∧ s.read8 s.pc = 0xFB#8
      ∧ after 1 s (fun t => t.read8 t.pc) = some 0x00#8 ∧ after 2 s (fun u => u.pfx) = some .noPrefix := by
  refine ⟨rfl, ?_, rfl, by decide, by decide⟩
  rintro (h | ⟨n, h, hn⟩)
  · cases h
  · cases h; exact absurd hn (by decide)

/-- EiWindow, the clauses on prefixed instructions: `EI; RETI` (R361 (d)), at the recorded time itself. -/
theorem wit_ei_reti :
    let s := { State.reset with istat := .ei 8, cycles := 8 }
    isPrefixRow .prefixEd = true ∧ exec .prefixEd s = .next { s with pfx := .ed, cycles := 12 }
      ∧ isPrefixRow .reti = false ∧ effective .reti ≠ .ei ∧ s.istat = .ei 8 ∧ 8 ≤ s.cycles
      ∧ ∃ t, exec .reti s = .next t ∧ t.istat = .ei 8 ∧ t.cycles = 18 :=
  ⟨rfl, rfl, rfl, by decide, rfl, by decide, _, rfl, rfl, rfl⟩

/-- InvariantIsKept: a state that meets the invariant, with memory, a halt and an `EI` time, and has a next state. -/
theorem wit_invariant :
    let s := { start 0xFFFE#16 [0x76#8, 0xFF#8, 0x01#8] with pfx := .halt, halted := true, istat := .ei 7, cycles := 7 }
    Inv s ∧ after 1 s (fun t => t.pfx) = some .halt :=
  ⟨⟨by decide, by decide, fun _ h => IntStatus.ei.inj h ▸ Nat.le_refl 7⟩, by decide⟩

/-- RefreshCounter: `LD R,A`; a table that counts; a table that does not; an accepted check; a halted core. -/
theorem wit_refresh :
    after 1 { start 0x0000#16 [0x4F#8] with pfx := .ed, af := 0x8500#16, r := 0x01#8 } (fun t => t.r) = some 0x85#8
      ∧ after 1 { start 0x0000#16 [0x00#8] with r := 0xFF#8 } (fun t => t.r) = some 0x80#8
      ∧ after 1 { start 0x0000#16 [0x00#8] with pfx := .cb, r := 0xFF#8 } (fun t => t.r) = some 0xFF#8
      ∧ after 1 { due with reqNmi := true } (fun t => t.r) = some 0x01#8
      ∧ after 1 { due with istat := .noCheck, pfx := .halt, halted := true } (fun t => t.r) = some 0x00#8 := by
  decide

/-- CyclesOfAStep: the bounds 4 and 19 are reached by instructions. -/
theorem wit_cycles :
    exec .nop due = .next { due with cycles := 4 }
      ∧ after 1 (start 0x0000#16 [0xE3#8]) (fun t => t.cycles) = some 19 :=
  ⟨rfl, by decide⟩

/-- HaltedCore and the last clause of RunReturns: a halted core with no check due; and one that a check leaves halted. -/
theorem wit_halted :
    (let s := { State.reset with pfx := .halt, halted := true, target := 100 };
      s.pfx = .halt ∧ ¬ CheckDue s)
      ∧ after 1 { due with pfx := .halt, halted := true } (fun t => t.pfx) = some .halt := by
  refine ⟨⟨rfl, ?_⟩, by decide⟩
  rintro (h | ⟨n, h, -⟩) <;> cases h

/-- ControlStateWriters: each register it names is changed by some instruction. -/
theorem wit_writers :
    let s := { State.reset with af := 0x0102#16, bc := 0x0304#16, iff2 := true }
    after 1 { s with mem := [⟨0, 0x08#8⟩] } (fun t => t.af') = some 0x0102#16
      ∧ after 1 { s with mem := [⟨0, 0xD9#8⟩] } (fun t => t.bc') = some 0x0304#16
      ∧ after 2 (s.poke 0x0000#16 [0xED#8, 0x47#8]) (fun t => t.i) = some 0x01#8
      ∧ after 2 (s.poke 0x0000#16 [0xED#8, 0x4F#8]) (fun t => t.r) = some 0x01#8
      ∧ after 2 (s.poke 0x0000#16 [0xED#8, 0x5E#8]) (fun t => t.im) = some .im2
      ∧ after 2 (s.poke 0x0000#16 [0xED#8, 0x4D#8]) (fun t => t.iff1) = some true
      ∧ after 1 (s.poke 0x0000#16 [0xF3#8]) (fun t => t.iff2) = some false
      ∧ after 1 (s.poke 0x0000#16 [0x76#8]) (fun t => (t.halted, t.pfx)) = some (true, .halt)
      ∧ after 2 (s.poke 0x0000#16 [0xDD#8, 0x23#8]) (fun t => t.ix) = some 0x0001#16
      ∧ after 2 (s.poke 0x0000#16 [0xFD#8, 0x23#8]) (fun t => t.iy) = some 0x0001#16 := by
  decide

/-- IoClassEffects: an instruction of the class, a kept entry of the class, `EI`, and one that is neither. -/
theorem wit_io_class :
    ioClass (.inAN 0x00#8) = true ∧ ioClass (.npUnchanged .ix (.outNA 0x00#8)) = true ∧ ioClass .otdr = true
      ∧ effective (.npUnchanged .iy .ei) = .ei ∧ ioClass .nop = false ∧ effective .nop ≠ .ei := by
  decide

/-- IoClassEffects and StoresOnlyItsCells: a next state, and an address outside and inside the stored cells. -/
theorem wit_stores :
    let s := { State.reset with sp := 0x0001#16 }
    storeCells (.call 0x1234#16) s = [0x0000#16, 0xFFFF#16] ∧ (0x0001#16 : Word) ∉ storeCells (.call 0x1234#16) s
      ∧ ∃ t, exec (.call 0x1234#16) { s with pc := 0x5678#16 } = .next t
          ∧ t.read8 0x0000#16 = 0x56#8 ∧ t.read8 0xFFFF#16 = 0x78#8 :=
  ⟨by decide, by decide, _, rfl, by decide, by decide⟩

/-- StoresOnlyItsCells: a block input, with a cell it stores to, a cell the platform stores to, and a cell that is neither. -/
theorem wit_platform_cells :
    let e : IoEffect := { latchNmi := false, mi := .keep, stores := [(0xC001#16, 0x55#8)] }
    let s := { State.reset with hl := 0xC000#16, ioIn := [{ port := none, data := 0x77#8, effect := e }] }
    storeCells .ini s = [0xC000#16] ∧ platformCells .ini s = [0xC001#16]
      ∧ ∃ t, exec .ini s = .next t ∧ t.read8 0xC000#16 = 0x77#8 ∧ t.read8 0xC001#16 = 0x55#8 ∧ t.read8 0xC002#16 = 0x00#8 :=
  ⟨by decide, by decide, _, rfl, by decide, by decide, by decide⟩

/-- SystemRegisterLoads, the clause on bit 7 of `R`: it is changed by `LD R,A`. -/
theorem wit_r7 :
    ∃ t, exec .ldRA { State.reset with af := 0x8000#16 } = .next t ∧ t.r.getLsbD 7 ≠ State.reset.r.getLsbD 7 :=
  ⟨_, rfl, by decide⟩

/-- RunReturns: a run that returns past its target, and a call whose target is already reached. -/
theorem wit_run :
    (∃ t, run 5 3 (start 0x0000#16 [0xDD#8, 0x23#8]) = .returned t ∧ t.cycles = 10 ∧ t.pfx = .noPrefix)
      ∧ AtBoundary { due with cycles := 7 } ∧ 7 ≤ { due with cycles := 7 }.cycles :=
  ⟨⟨_, rfl, rfl, rfl⟩, .inl rfl, by decide⟩

/-- MemoryLaws: a memory in canonical form that the write of an unlisted cell's value shrinks. -/
theorem wit_memory :
    let s := { State.reset with mem := [⟨0x0000, 0x11#8⟩, ⟨0xFFFF, 0x22#8⟩] }
    s.mem.wf = true ∧ (s.write8 0xFFFF#16 0x00#8).mem = [⟨0x0000, 0x11#8⟩]
      ∧ (s.write16 0xFFFF#16 0x3344#16).mem = [⟨0x0000, 0x33#8⟩, ⟨0xFFFF, 0x44#8⟩] := by
  decide

/-- HalfIndexLoads: each half as destination, each half as source. -/
theorem wit_ldPP : WellFormed (.ldPP .ix .iih .iil) ∧ WellFormed (.ldPP .iy .a .iih) ∧ WellFormed (.ldPP .iy .iil .b) := by
  decide

/-- Jumps: the four conditions of `JR cc`, at the ends of the offset's range. -/
theorem wit_jr : ∀ cc ∈ [Cond.nz, .z, .nc, .c], WellFormed (.jrCc cc 0x80#8) ∧ WellFormed (.jrCc cc 0x7F#8) := by decide

/-- Calls and Returns: states in which a condition holds and does not. -/
theorem wit_conditions :
    { State.reset with af := 0x0001#16 }.cond .c = true ∧ State.reset.cond .c = false
      ∧ { State.reset with af := 0x0080#16 }.cond .p = false ∧ State.reset.cond .p = true := by
  decide

/-- Returns and CpuControl: every code of `RETN` and of the three `IM` instructions; ends of the holes of table `ED`. -/
theorem wit_ed_codes :
    (∀ y ∈ [0#3, 2#3, 3#3, 4#3, 5#3, 6#3, 7#3], WellFormed (.retn y))
      ∧ (∀ y ∈ [0#3, 1#3, 4#3, 5#3], WellFormed (.im0 y)) ∧ (∀ y ∈ [2#3, 6#3], WellFormed (.im1 y))
      ∧ (∀ y ∈ [3#3, 7#3], WellFormed (.im2 y))
      ∧ ∀ op ∈ [0x00#8, 0x3F#8, 0x77#8, 0x7F#8, 0x80#8, 0xBF#8, 0xFF#8], WellFormed (.nopEd op) := by
  decide

/-- KeptEntries: kept entries of several shapes. -/
theorem wit_kept :
    WellFormed (.npUnchanged .ix (.call 0xFFFF#16)) ∧ WellFormed (.npUnchanged .iy .exx)
      ∧ WellFormed (.npUnchanged .iy (.ldRegReg .b .c)) := by
  decide

/-- FaultIsSticky: an action that is a reset and one that is not. -/
theorem wit_fault :
    (∃ d, HostAction.reset InitRegs.zero = .reset d) ∧ ∀ d, HostAction.run 1 1 ≠ .reset d :=
  ⟨⟨_, rfl⟩, fun _ h => by cases h⟩

/-- AccessorRoundTrip: two slots that differ. -/
theorem wit_slots : Slot.af' ≠ Slot.af := by decide

end Sys2Proof.Tests
end

section
/-! PROOFS. What the shared parts of the meanings do to the components that `Ordinary` (Laws/Exec.lean) leaves open and a claim
over every instruction asks for: the counter, memory, the index registers. -/

namespace Sys2Proof.Machine

variable (s : State)

/-! ## Updates of `AF` alone -/

@[simp] theorem aluAdd_frame (v : Byte) : (aluAdd v s).cycles = s.cycles ∧ (aluAdd v s).mem = s.mem
    ∧ (aluAdd v s).ix = s.ix ∧ (aluAdd v s).iy = s.iy := ⟨rfl, rfl, rfl, rfl⟩
@[simp] theorem aluAdc_frame (v : Byte) : (aluAdc v s).cycles = s.cycles ∧ (aluAdc v s).mem = s.mem
    ∧ (aluAdc v s).ix = s.ix ∧ (aluAdc v s).iy = s.iy := ⟨rfl, rfl, rfl, rfl⟩
@[simp] theorem aluSub_frame (v : Byte) : (aluSub v s).cycles = s.cycles ∧ (aluSub v s).mem = s.mem
    ∧ (aluSub v s).ix = s.ix ∧ (aluSub v s).iy = s.iy := ⟨rfl, rfl, rfl, rfl⟩
@[simp] theorem aluSbc_frame (v : Byte) : (aluSbc v s).cycles = s.cycles ∧ (aluSbc v s).mem = s.mem
    ∧ (aluSbc v s).ix = s.ix ∧ (aluSbc v s).iy = s.iy := ⟨rfl, rfl, rfl, rfl⟩
@[simp] theorem aluAnd_frame (v : Byte) : (aluAnd v s).cycles = s.cycles ∧ (aluAnd v s).mem = s.mem
    ∧ (aluAnd v s).ix = s.ix ∧ (aluAnd v s).iy = s.iy := ⟨rfl, rfl, rfl, rfl⟩
@[simp] theorem aluXor_frame (v : Byte) : (aluXor v s).cycles = s.cycles ∧ (aluXor v s).mem = s.mem
    ∧ (aluXor v s).ix = s.ix ∧ (aluXor v s).iy = s.iy := ⟨rfl, rfl, rfl, rfl⟩
@[simp] theorem aluOr_frame (v : Byte) : (aluOr v s).cycles = s.cycles ∧ (aluOr v s).mem = s.mem
    ∧ (aluOr v s).ix = s.ix ∧ (aluOr v s).iy = s.iy := ⟨rfl, rfl, rfl, rfl⟩
@[simp] theorem aluCp_frame (v : Byte) : (aluCp v s).cycles = s.cycles ∧ (aluCp v s).mem = s.mem
    ∧ (aluCp v s).ix = s.ix ∧ (aluCp v s).iy = s.iy := ⟨rfl, rfl, rfl, rfl⟩
@[simp] theorem rotA_frame (f : Byte → Bool → Byte × Bool) : (rotA f s).cycles = s.cycles ∧ (rotA f s).mem = s.mem
    ∧ (rotA f s).ix = s.ix ∧ (rotA f s).iy = s.iy := ⟨rfl, rfl, rfl, rfl⟩
@[simp] theorem ldAFrom_frame (v : Byte) : (ldAFrom v s).cycles = s.cycles ∧ (ldAFrom v s).mem = s.mem
    ∧ (ldAFrom v s).ix = s.ix ∧ (ldAFrom v s).iy = s.iy := ⟨rfl, rfl, rfl, rfl⟩

/-! ## The `CB` rotates (R244) -/

@[simp] theorem rotInReg_frame (f : Byte → Bool → Byte × Bool) (r : Reg8) :
    (rotInReg f r s).cycles = s.cycles + 4 ∧ (rotInReg f r s).mem = s.mem
      ∧ (rotInReg f r s).ix = s.ix ∧ (rotInReg f r s).iy = s.iy := by simp [rotInReg]
@[simp] theorem rotAtHl_frame (f : Byte → Bool → Byte × Bool) :
    (rotAtHl f s).cycles = s.cycles + 11
      ∧ (rotAtHl f s).mem = s.mem.write s.hl.toNat (f s.atHl (flagC s.getF)).1
      ∧ (rotAtHl f s).ix = s.ix ∧ (rotAtHl f s).iy = s.iy := ⟨rfl, rfl, rfl, rfl⟩
@[simp] theorem rotAtIi_frame (f : Byte → Bool → Byte × Bool) (ii : Idx) (d : Byte) :
    (rotAtIi f ii d s).cycles = s.cycles + 19
      ∧ (rotAtIi f ii d s).mem = s.mem.write (s.ea ii d).toNat (f (s.atIi ii d) (flagC s.getF)).1
      ∧ (rotAtIi f ii d s).ix = s.ix ∧ (rotAtIi f ii d s).iy = s.iy := ⟨rfl, rfl, rfl, rfl⟩
@[simp] theorem rotAtIiReg_frame (f : Byte → Bool → Byte × Bool) (ii : Idx) (d : Byte) (r : Reg8) :
    (rotAtIiReg f ii d r s).cycles = s.cycles + 19
      ∧ (rotAtIiReg f ii d r s).mem = s.mem.write (s.ea ii d).toNat (f (s.atIi ii d) (flagC s.getF)).1
      ∧ (rotAtIiReg f ii d r s).ix = s.ix ∧ (rotAtIiReg f ii d r s).iy = s.iy := by simp [rotAtIiReg]
@[simp] theorem digitRotate_frame (m a : Byte) :
    (digitRotate m a s).cycles = s.cycles ∧ (digitRotate m a s).mem = s.mem.write s.hl.toNat m
      ∧ (digitRotate m a s).ix = s.ix ∧ (digitRotate m a s).iy = s.iy := ⟨rfl, rfl, rfl, rfl⟩

/-! ## The element steps of the block instructions (R291 to R305) -/

@[simp] theorem moveStep_frame (k : Step) :
    (moveStep k s).cycles = s.cycles ∧ (moveStep k s).mem = s.mem.write s.de.toNat s.atHl
      ∧ (moveStep k s).ix = s.ix ∧ (moveStep k s).iy = s.iy := ⟨rfl, rfl, rfl, rfl⟩
@[simp] theorem searchStep_frame (k : Step) :
    (searchStep k s).cycles = s.cycles ∧ (searchStep k s).mem = s.mem
      ∧ (searchStep k s).ix = s.ix ∧ (searchStep k s).iy = s.iy := ⟨rfl, rfl, rfl, rfl⟩
@[simp] theorem inputStep_frame (k : Step) :
    (inputStep k s).cycles = s.cycles
      ∧ (inputStep k s).mem = (s.mem.writeAll (s.readReply s.bc).2.stores).write s.hl.toNat (s.ioByte s.bc)
      ∧ (inputStep k s).ix = s.ix ∧ (inputStep k s).iy = s.iy := ⟨rfl, rfl, rfl, rfl⟩
@[simp] theorem outputStep_frame (k : Step) :
    (outputStep k s).cycles = s.cycles
      ∧ (outputStep k s).mem = s.mem.writeAll (s.writeReply (setHi s.bc (s.getB - 1#8)) s.atHl).stores
      ∧ (outputStep k s).ix = s.ix ∧ (outputStep k s).iy = s.iy := ⟨rfl, rfl, rfl, rfl⟩
@[simp] theorem repeatIf_frame (again : Bool) :
    (repeatIf again s).cycles = s.cycles + (if again then 17 else 12) ∧ (repeatIf again s).mem = s.mem
      ∧ (repeatIf again s).ix = s.ix ∧ (repeatIf again s).iy = s.iy := by cases again <;> exact ⟨rfl, rfl, rfl, rfl⟩

/-! ## Calls, returns and the word at `SP` -/

@[simp] theorem callTo_frame (a : Word) :
    (callTo a s).cycles = s.cycles ∧ (callTo a s).mem = (s.push16 s.pc).mem
      ∧ (callTo a s).ix = s.ix ∧ (callTo a s).iy = s.iy := ⟨rfl, rfl, rfl, rfl⟩
@[simp] theorem returnTo_frame :
    (returnTo s).cycles = s.cycles ∧ (returnTo s).mem = s.mem ∧ (returnTo s).ix = s.ix ∧ (returnTo s).iy = s.iy :=
  ⟨rfl, rfl, rfl, rfl⟩
@[simp] theorem returnFromInterrupt_frame :
    s.returnFromInterrupt.cycles = s.cycles ∧ s.returnFromInterrupt.mem = s.mem
      ∧ s.returnFromInterrupt.ix = s.ix ∧ s.returnFromInterrupt.iy = s.iy := ⟨rfl, rfl, rfl, rfl⟩
@[simp] theorem replaceTop_frame (w : Word) :
    (replaceTop w s).cycles = s.cycles
      ∧ (replaceTop w s).mem = (s.mem.write (s.sp + 1#16).toNat (hi w)).write s.sp.toNat (lo w)
      ∧ (replaceTop w s).ix = s.ix ∧ (replaceTop w s).iy = s.iy := ⟨rfl, rfl, rfl, rfl⟩

/-! ## Index registers: table `DD` writes `IX`, table `FD` writes `IY` (R14, R72) -/

@[simp] theorem setIi_ix_of_ne {ii : Idx} (h : ii.table ≠ .dd) (w : Word) : (s.setIi ii w).ix = s.ix := by
  cases ii with
  | ix => exact absurd rfl h
  | iy => rfl

@[simp] theorem setIi_iy_of_ne {ii : Idx} (h : ii.table ≠ .fd) (w : Word) : (s.setIi ii w).iy = s.iy := by
  cases ii with
  | ix => rfl
  | iy => exact absurd rfl h

@[simp] theorem setP_ix_of_ne {ii : Idx} (h : ii.table ≠ .dd) (p : RegP) (v : Byte) : (s.setP ii p v).ix = s.ix := by
  cases p <;> first | rfl | exact setIi_ix_of_ne s h _

@[simp] theorem setP_iy_of_ne {ii : Idx} (h : ii.table ≠ .fd) (p : RegP) (v : Byte) : (s.setP ii p v).iy = s.iy := by
  cases p <;> first | rfl | exact setIi_iy_of_ne s h _

end Sys2Proof.Machine
end

section
/-! PROOFS. What every instruction does to the counter, to memory and to the index registers: one case per instruction, each
closed by the lemmas about the updates it is made of. -/

namespace Sys2Proof.Machine

/-- Every row but the prefix `CB` of tables `DD`/`FD` adds between 4 and 19 cycles (R99): a total of 23 is the largest of a
prefixed instruction. -/
theorem exec_cycles {i : Instr} {s t : State} (hn : ∀ ii k, i ≠ .npUnchanged ii k) (hx : ∀ ii, i ≠ .prefixCbXy ii)
    (h : exec i s = .next t) : s.cycles + 4 ≤ t.cycles ∧ t.cycles ≤ s.cycles + 19 := by
  cases i
  case npUnchanged ii k => exact absurd rfl (hn ii k)
  case prefixCbXy ii => exact absurd rfl (hx ii)
  all_goals obtain rfl := Host.Outcome.next.inj h
  all_goals simp [apply_ite State.cycles]
  -- what is left has a taken and a not taken case
  all_goals split <;> omega

/-- Every instruction keeps memory in canonical form: it stores with `Memory.write` and `Memory.writeAll` only. -/
theorem exec_mem_wf {i : Instr} {s t : State} (hn : ∀ ii k, i ≠ .npUnchanged ii k) (h : exec i s = .next t)
    (hw : s.mem.wf = true) : t.mem.wf = true := by
  cases i
  case npUnchanged ii k => exact absurd rfl (hn ii k)
  all_goals obtain rfl := Host.Outcome.next.inj h
  all_goals
    simp [hw, Memory.wf_write, Memory.wf_writeAll, apply_ite State.mem, apply_ite Memory.wf,
      -BitVec.toNat_add, -BitVec.toNat_sub]

/-- Only an entry of table `DD` writes `IX`, only one of table `FD` writes `IY` (R14, R72). -/
theorem exec_idx {i : Instr} {s t : State} (hn : ∀ ii k, i ≠ .npUnchanged ii k) (h : exec i s = .next t) :
    (i.table ≠ .dd → t.ix = s.ix) ∧ (i.table ≠ .fd → t.iy = s.iy) := by
  cases i
  case npUnchanged ii k => exact absurd rfl (hn ii k)
  all_goals obtain rfl := Host.Outcome.next.inj h
  all_goals
    refine ⟨fun ht => ?_, fun ht => ?_⟩ <;> simp only [Instr.table] at ht
    · simp [ht, apply_ite State.ix]
    · simp [ht, apply_ite State.iy]

end Sys2Proof.Machine
end

section
/-! PROOFS. What every instruction does to the components that few instructions write: the decode state, `halted`, the shadow
set, `I`, `R`, the mode, the latches, the status of the interrupt check. -/

namespace Sys2Proof.Machine

/-! ## The instruction that runs -/

/-- A kept entry that completes is an entry of table `NP`. -/
theorem kept_table {ii : Idx} {j : Instr} {s t : State} (h : exec (.npUnchanged ii j) s = .next t) : j.table = .np := by
  cases j <;> first | rfl | exact Host.Outcome.noConfusion rfl rfl rfl (heq_of_eq h)

/-- What completes is the effective instruction, no kept entry itself; where it is not the instruction, it is one of table
`NP`. -/
theorem exec_effective {i : Instr} {s t : State} (h : exec i s = .next t) :
    exec (effective i) s = .next t ∧ (∀ ii k, effective i ≠ .npUnchanged ii k)
      ∧ (effective i = i ∨ (effective i).table = .np ∧ ∃ ii, i = .npUnchanged ii (effective i)) := by
  unfold effective
  split
  case h_1 ii j => exact ⟨(exec_npUnchanged h).1, (exec_npUnchanged h).2, .inr ⟨kept_table h, ii, rfl⟩⟩
  case h_2 hn => exact ⟨h, hn, .inl rfl⟩

/-! ## Control components -/

/-- The decode state an instruction leaves: `HALT` and the prefix bytes write it (R25, R70, R71, R359). -/
def pfxAfter (p : Pfx) : Instr → Pfx
  | .halt => .halt
  | .prefixCb => .cb
  | .prefixCbXy ii => pfxXyCb ii
  | .prefixEd | .prefixEdXy _ => .ed
  | .prefixDd | .prefixDdXy _ => .dd
  | .prefixFd | .prefixFdXy _ => .fd
  | _ => p

/-- An instruction that is neither `HALT` nor a prefix byte leaves the decode state. -/
theorem pfxAfter_cases (p : Pfx) (i : Instr) : i = .halt ∨ isPrefixRow i = true ∨ pfxAfter p i = p := by
  unfold pfxAfter
  split <;> simp [isPrefixRow]

/-- Only `HALT` halts. -/
theorem pfxAfter_eq_halt {p : Pfx} (hp : p ≠ .halt) (i : Instr) : pfxAfter p i = .halt ↔ i = .halt := by
  unfold pfxAfter
  split
  case h_3 ii => cases ii <;> simp [pfxXyCb]
  all_goals simp_all

/-- What an instruction does to the control components: each is kept but by the instructions named here (R13, R20 to R26). -/
structure ControlEffect (i : Instr) (s t : State) : Prop where
  af' : i ≠ .exAfAf → t.af' = s.af'
  shadow : i ≠ .exx → t.bc' = s.bc' ∧ t.de' = s.de' ∧ t.hl' = s.hl'
  base : i ≠ .ldIA → t.i = s.i
  refresh : t.r = if i = .ldRA then s.getA else s.r
  mode : (∀ y, i ≠ .im0 y ∧ i ≠ .im1 y ∧ i ≠ .im2 y) → t.im = s.im
  iff1 : i ≠ .ei → i ≠ .di → (∀ y, i ≠ .retn y) → i ≠ .reti → t.iff1 = s.iff1
  iff2 : i ≠ .ei → i ≠ .di → t.iff2 = s.iff2
  halted : t.halted = (decide (i = .halt) || s.halted)
  pfx : t.pfx = pfxAfter s.pfx i
  istat : t.istat = s.istat ∨ t.istat = .check ∨ t.istat = .ei t.cycles

theorem isPrefixRow_of_not_writesControl {i : Instr} (h : writesControl i = false) : isPrefixRow i = false := by
  unfold writesControl at h
  split at h
  case h_13 => exact h
  all_goals cases h

/-- An instruction that writes none of them, but for the status of the check, has that effect. -/
theorem controlEffect_of_same {i : Instr} {s t : State} (hc : writesControl i = false)
    (h : t = { s with af := t.af, bc := t.bc, de := t.de, hl := t.hl, ix := t.ix, iy := t.iy, sp := t.sp, pc := t.pc,
                      cycles := t.cycles, istat := t.istat, mem := t.mem, ioIn := t.ioIn, ioOut := t.ioOut,
                      ioLog := t.ioLog, reqNmi := t.reqNmi, reqMi := t.reqMi, ioCount := t.ioCount, draws := t.draws })
    (hs : t.istat = s.istat ∨ t.istat = .check) : ControlEffect i s t := by
  have hr : i ≠ .ldRA := by rintro rfl; cases hc
  have hh : i ≠ .halt := by rintro rfl; cases hc
  have hp : pfxAfter s.pfx i = s.pfx := by
    have k := pfxAfter_cases s.pfx i
    simpa [hh, isPrefixRow_of_not_writesControl hc] using k
  refine ⟨?_, ?_, ?_, ?_, ?_, ?_, ?_, ?_, ?_, hs.imp_right .inl⟩ <;> rw [h] <;> simp [hr, hh, hp]

/-- The control components over every instruction. -/
theorem exec_controlEffect {i : Instr} {s t : State} (hn : ∀ ii k, i ≠ .npUnchanged ii k) (h : exec i s = .next t) :
    ControlEffect i s t := by
  cases hc : writesControl i with
  | false =>
    cases hp : ioClass i with
    | false =>
      have k : Ordinary s t := exec_ordinary hn hc hp h
      refine controlEffect_of_same hc ?_ (.inl ?_) <;> rw [k]
    | true =>
      obtain ⟨k, ev, e, -, -, hs, -⟩ := exec_port hn hp h
      refine controlEffect_of_same hc ?_ (.inr hs)
      rw [k]
  | true =>
    cases i
    all_goals first
      | exact Bool.noConfusion (show false = true from hc)
      | obtain rfl := Host.Outcome.next.inj h
    all_goals constructor <;> simp [pfxAfter, State.returnFromInterrupt]
end Sys2Proof.Machine
end

section
/-! PROOFS. The invariant of a run (spec 10_state.md R28) holds at reset and every step keeps it. -/

namespace Sys2Proof.Machine

/-- `cycles` never decreases in an instruction. -/
theorem exec_cycles_le {i : Instr} {s t : State} (h : exec i s = .next t) : s.cycles ≤ t.cycles := by
  obtain ⟨he, hn, -⟩ := exec_effective h
  by_cases hx : ∃ ii, effective i = .prefixCbXy ii
  · obtain ⟨ii, hx⟩ := hx
    rw [hx] at he
    exact (Host.Outcome.next.inj he) ▸ Nat.le_refl _
  · push Not at hx
    exact Nat.le_of_add_right_le (exec_cycles hn hx he).1

/-! ## The state an entry runs in -/

theorem iteration_fetch_pfx {s : State} {tab : Table} (h : s.iteration = .fetch tab) : s.pfx = pfxOf tab :=
  ((iteration_fetch s tab).1 h).1

@[simp] theorem fetched_cycles (s : State) (tab : Table) (n : Nat) : (fetched s tab n).cycles = s.cycles := by
  cases tab <;> rfl
@[simp] theorem fetched_mem (s : State) (tab : Table) (n : Nat) : (fetched s tab n).mem = s.mem := by cases tab <;> rfl
@[simp] theorem fetched_halted (s : State) (tab : Table) (n : Nat) : (fetched s tab n).halted = s.halted := by
  cases tab <;> rfl
@[simp] theorem fetched_istat (s : State) (tab : Table) (n : Nat) : (fetched s tab n).istat = s.istat := by
  cases tab <;> rfl
@[simp] theorem fetched_getA (s : State) (tab : Table) (n : Nat) : (fetched s tab n).getA = s.getA := by
  cases tab <;> rfl

/-- An entry runs at an instruction boundary, in no halt (R94 to R97). -/
theorem fetched_pfx {s : State} {tab : Table} (h : s.iteration = .fetch tab) (n : Nat) :
    (fetched s tab n).pfx = .noPrefix := by
  have hp := iteration_fetch_pfx h
  cases tab <;> first | exact hp | rfl

/-- `R` counts before an entry of tables `NP`, `DD`, `FD` runs, and before no other (R21, R94 to R97). -/
theorem fetched_r (s : State) (tab : Table) (n : Nat) :
    (fetched s tab n).r = if tab = .np ∨ tab = .dd ∨ tab = .fd then countedR s.r else s.r := by
  cases tab <;> rfl

/-! ## The invariant, piece by piece -/

theorem Entered.inv {s t : State} {entry : Word} {cost : Nat} {f2 : Bool} (hs : Inv s) (h : Entered entry cost f2 s t) :
    Inv t := by
  obtain ⟨⟨h, -⟩, hm⟩ := h
  refine ⟨hm ▸ State.wf_push16 s hs.1 s.pc, ?_, ?_⟩ <;> rw [h] <;> simp

theorem interruptCheck_inv {s t : State} (hs : Inv s) (h : interruptCheck s = .next t) : Inv t := by
  rcases interruptCheck_cases h with ⟨-, entry, cost, f2, k⟩ | ⟨-, rfl⟩
  · exact k.inv hs
  · exact ⟨hs.1, hs.2.1, fun n hn => by cases hn⟩

theorem haltSpin_inv {s : State} (hs : Inv s) : Inv s.haltSpin :=
  ⟨hs.1, hs.2.1, fun n hn => Nat.le_trans (hs.2.2 n hn) (Nat.le_max_left ..)⟩

/-- A fetch starts in the middle of an instruction or at a boundary, so in no halt: `halted` still agrees when the decode state
is reset. -/
theorem fetched_inv {s : State} {tab : Table} (hs : Inv s) (h : s.iteration = .fetch tab) (n : Nat) :
    Inv (fetched s tab n) := by
  obtain ⟨hm, hh, he⟩ := hs
  refine ⟨by simpa using hm, ?_, by simpa using he⟩
  have hp : s.pfx ≠ .halt := by rw [iteration_fetch_pfx h]; cases tab <;> decide
  simp [hh, hp, fetched_pfx h]

/-- An instruction that starts at a boundary, in no halt, keeps the invariant. -/
theorem exec_inv {i : Instr} {s t : State} (hs : Inv s) (hp : s.pfx = .noPrefix) (h : exec i s = .next t) : Inv t := by
  obtain ⟨hm, hh, he⟩ := hs
  obtain ⟨hx, hn, -⟩ := exec_effective h
  have c := exec_controlEffect hn hx
  refine ⟨exec_mem_wf hn hx hm, ?_, fun n hi => ?_⟩
  · have hf : s.halted = false := by simpa [hp] using hh
    rw [c.halted, c.pfx, hf, hp]
    by_cases k : effective i = .halt
    · simp [k, pfxAfter]
    · simp [k, pfxAfter_eq_halt]
  · have hle := exec_cycles_le h
    rcases c.istat with k | k | k <;> rw [k] at hi
    · exact Nat.le_trans (he n hi) hle
    · cases hi
    · cases hi; exact Nat.le_refl _

/-- Settles O10: a check, a halted spin and a fetched entry each keep the invariant. -/
theorem invariantIsKept : Obligations.InvariantIsKept := by
  intro s t hs h
  rcases step_cases h with ⟨-, hc⟩ | ⟨-, rfl⟩ | ⟨tab, i, rest, hf, -, hx⟩
  · exact interruptCheck_inv hs hc
  · exact haltSpin_inv hs
  · exact exec_inv (fetched_inv hs hf _) (fetched_pfx hf _) hx

/-- Settles O11: memory is empty, the core runs and no `EI` is recorded, whatever the draw. -/
theorem invariantAtReset : Obligations.InvariantAtReset := fun d =>
  ⟨State.wf_reset d, by simp [State.resetWith], fun n h => by cases h⟩

end Sys2Proof.Machine
end

section
/-! PROOFS. The counter, the writers of the control components, and the host's accessors and reset (spec 10_state.md R11 to R31,
70_reset_and_hazards.md R420). -/

namespace Sys2Proof.Machine

/-! ## The counter -/

theorem Entered.cycles_le {s t : State} {entry : Word} {cost : Nat} {f2 : Bool} (h : Entered entry cost f2 s t) :
    s.cycles ≤ t.cycles := by
  rw [h.1.1]; exact Nat.le_add_right ..

theorem step_cycles_le {s t : State} (h : step s = .next t) : s.cycles ≤ t.cycles := by
  rcases step_cases h with ⟨-, hc⟩ | ⟨-, rfl⟩ | ⟨tab, i, rest, -, -, hx⟩
  · rcases interruptCheck_cases hc with ⟨-, entry, cost, f2, k⟩ | ⟨-, rfl⟩
    · exact k.cycles_le
    · exact Nat.le_refl _
  · exact Nat.le_max_left ..
  · simpa using exec_cycles_le hx

/-- The effective instruction's table, where that is not `NP`, is the instruction's own. -/
theorem table_of_effective {i : Instr} {s t : State} (h : exec i s = .next t) {tab : Table} (hk : tab ≠ .np)
    (ht : (effective i).table = tab) : i.table = tab := by
  obtain ⟨-, -, he | ⟨hnp, -⟩⟩ := exec_effective h
  · rwa [he] at ht
  · exact absurd (ht.symm.trans hnp) hk

/-- Settles O13: of the rows, only the prefix `CB` of tables `DD`/`FD` is outside the bounds (`exec_cycles`), and no kept entry
is that row. -/
theorem cyclesOfAStep : Obligations.CyclesOfAStep := by
  refine ⟨fun s t h => step_cycles_le h, fun i s t hp h => ?_⟩
  obtain ⟨hx, hn, he⟩ := exec_effective h
  refine exec_cycles hn (fun ii hc => ?_) hx
  rw [hc] at he
  rcases he with rfl | ⟨hnp, -⟩
  · cases hp
  · cases ii <;> cases hnp

/-! ## Who writes what -/

/-- Settles O16: `ControlEffect` names the writers of the control components, `exec_idx` those of the index registers. -/
theorem controlStateWriters : Obligations.ControlStateWriters := by
  intro i s t h
  obtain ⟨hx, hn, -⟩ := exec_effective h
  have c := exec_controlEffect hn hx
  refine ⟨fun k => ?_, fun k => ?_, fun k => ?_, fun k => ?_, fun k => ?_, fun k => ?_, fun k => ?_, fun k => ?_,
    fun k => ?_, fun k => ?_, fun k => ?_⟩
  · exact Not.imp_symm c.af' k
  · by_contra hne
    obtain ⟨hb, hd, hh⟩ := c.shadow hne
    simp [hb, hd, hh] at k
  · exact Not.imp_symm c.base k
  · by_contra hne
    exact k (c.refresh.trans (if_neg hne))
  · by_contra hne
    simp only [not_or, not_exists] at hne
    exact k (c.mode fun y => ⟨hne.1 y, hne.2.1 y, hne.2.2 y⟩)
  · by_contra hne
    simp only [not_or, not_exists] at hne
    exact k (c.iff1 hne.1 hne.2.1 hne.2.2.1 hne.2.2.2)
  · by_contra hne
    simp only [not_or] at hne
    exact k (c.iff2 hne.1 hne.2)
  · by_contra hne
    exact k (by simp [c.halted, hne])
  · rcases pfxAfter_cases s.pfx (effective i) with e | e | e
    · exact .inl e
    · exact .inr e
    · exact absurd (c.pfx.trans e) k
  · exact table_of_effective h (by decide) (Not.imp_symm (exec_idx hn hx).1 k)
  · exact table_of_effective h (by decide) (Not.imp_symm (exec_idx hn hx).2 k)

/-! ## Accessors (R17) -/

namespace State

variable (s : State)

@[simp] theorem getSlot_setSlot_same (x : Slot) (w : Word) : (s.setSlot x w).getSlot x = w := by cases x <;> rfl

theorem getSlot_setSlot_ne {x y : Slot} (h : y ≠ x) (w : Word) : (s.setSlot x w).getSlot y = s.getSlot y := by
  cases x <;> cases y <;> first | exact absurd rfl h | rfl

/-- Writing the high half (R11). -/
theorem setHigh_spec (x : Slot) (v : Byte) : (s.setHigh x v).getHigh x = v ∧ (s.setHigh x v).getLow x = s.getLow x := by
  simp [setHigh, getHigh, getLow]

/-- Writing the low half (R11). -/
theorem setLow_spec (x : Slot) (v : Byte) : (s.setLow x v).getLow x = v ∧ (s.setLow x v).getHigh x = s.getHigh x := by
  simp [setLow, getHigh, getLow]

/-- The setter of `halted` writes the decode state to match (D28). -/
theorem setHalted_spec (b : Bool) :
    (s.setHalted b).halted = b ∧ ((s.setHalted b).pfx = .halt ↔ b = true) ∧ AtBoundary (s.setHalted b) := by
  cases b <;> simp [setHalted, AtBoundary]

end State

/-- Settles O20: a slot reads back what was written (`getSlot_setSlot_same`), and a half is a half of that. -/
theorem accessorRoundTrip : Obligations.AccessorRoundTrip := fun s x w v b =>
  ⟨⟨s.getSlot_setSlot_same x w, fun _ hy => s.getSlot_setSlot_ne hy w⟩, s.setHigh_spec x v, s.setLow_spec x v,
    (join_hi_lo (s.getSlot x)).symm, s.setHalted_spec b⟩

/-! ## Reset (R30 to R32) -/

/-- Settles O19: each component is the one `State.hostReset` writes. -/
theorem resetValues : Obligations.ResetValues := by
  intro d s
  refine ⟨?_, ?_, ?_⟩ <;> simp [State.hostReset, State.resetWith]

end Sys2Proof.Machine
end

section
/-! PROOFS. What the decoder reads: every row it answers is one of the table it reads, a prefix byte is no kept entry, and the
byte of `LD R,A` (spec 30_encoding.md R65 to R74). -/

namespace Sys2Proof

open Machine

/-! ## Claims about all rows a decoder can answer -/

/-- Every row that this result can be satisfies `P`. -/
def Reads (P : Instr → Prop) (r : DecodeResult) : Prop := ∀ i rest, r = .ok (i, rest) → P i

section

variable {P : Instr → Prop} {bs : List Byte}

theorem reads_plain {i : Instr} (h : P i) : Reads P (plain i bs) := by
  simp [Reads, plain, h]

theorem reads_withByte {k : Byte → Instr} (h : ∀ n, P (k n)) : Reads P (withByte k bs) := by
  cases bs <;> simp [Reads, withByte, h]

theorem reads_withWord {k : Word → Instr} (h : ∀ nn, P (k nn)) : Reads P (withWord k bs) := by
  unfold withWord; split <;> simp [Reads, h]

theorem reads_withTwo {k : Byte → Byte → Instr} (h : ∀ d n, P (k d n)) : Reads P (withTwo k bs) := by
  unfold withTwo; split <;> simp [Reads, h]

/-- A kept entry is made of the entry that table `NP` reads (R72 item 5). -/
theorem reads_decodeKept {ii : Idx} {op : Byte}
    (h : ∀ j, (∃ rest, decodeNp op bs = .ok (j, rest)) → P (.npUnchanged ii j)) : Reads P (decodeKept ii op bs) := by
  intro i rest hi
  unfold decodeKept at hi
  split at hi
  case h_1 hj => cases hi; exact h _ ⟨_, hj⟩
  case h_2 => cases hi

end

/-! ## Rows of table `NP` (R65): which are prefix bytes -/

/-- The byte is a prefix byte (R70, R71). -/
def IsPrefixByte (op : Byte) : Prop := op = 0xCB#8 ∨ op = 0xDD#8 ∨ op = 0xED#8 ∨ op = 0xFD#8

/-- A row of table `NP`, a prefix row only where the opcode is a prefix byte. -/
def NpRow (op : Byte) (i : Instr) : Prop := i.table = .np ∧ (isPrefixRow i = true → IsPrefixByte op)

theorem npRow_of {op : Byte} {i : Instr} (h : i.table = .np ∧ isPrefixRow i = false) : NpRow op i :=
  ⟨h.1, fun k => absurd (h.2.symm.trans k) Bool.false_ne_true⟩

theorem aluReg_row (y : Nat) (r : Reg8) : (aluReg y r).table = .np ∧ isPrefixRow (aluReg y r) = false := by
  unfold aluReg; split <;> exact ⟨rfl, rfl⟩
theorem aluMem_row (y : Nat) : (aluMem y).table = .np ∧ isPrefixRow (aluMem y) = false := by
  unfold aluMem; split <;> exact ⟨rfl, rfl⟩
theorem aluN_row (y : Nat) (n : Byte) : (aluN y n).table = .np ∧ isPrefixRow (aluN y n) = false := by
  unfold aluN; split <;> exact ⟨rfl, rfl⟩
theorem accOp_row (y : Nat) : (accOp y).table = .np ∧ isPrefixRow (accOp y) = false := by
  unfold accOp; split <;> exact ⟨rfl, rfl⟩

theorem decodeNp0_row (op : Byte) (bs : List Byte) : Reads (NpRow op) (decodeNp0 op bs) := by
  unfold decodeNp0
  repeat' split
  all_goals first
    | exact reads_plain (npRow_of ⟨rfl, rfl⟩)
    | exact reads_withByte fun _ => npRow_of ⟨rfl, rfl⟩
    | exact reads_withWord fun _ => npRow_of ⟨rfl, rfl⟩
    | exact reads_plain (npRow_of (accOp_row _))

theorem decodeNp1_row (op : Byte) (bs : List Byte) : Reads (NpRow op) (decodeNp1 op bs) := by
  unfold decodeNp1
  split <;> exact reads_plain (npRow_of ⟨rfl, rfl⟩)

theorem decodeNp2_row (op : Byte) (bs : List Byte) : Reads (NpRow op) (decodeNp2 op bs) := by
  unfold decodeNp2
  split
  · exact reads_plain (npRow_of (aluReg_row _ _))
  · exact reads_plain (npRow_of (aluMem_row _))

theorem decodeNp3_row {op : Byte} (hx : opX op = 3) (bs : List Byte) : Reads (NpRow op) (decodeNp3 op bs) := by
  unfold decodeNp3
  repeat' split
  all_goals first
    | exact reads_plain (npRow_of ⟨rfl, rfl⟩)
    | exact reads_withWord fun _ => npRow_of ⟨rfl, rfl⟩
    | exact reads_withByte fun _ => npRow_of ⟨rfl, rfl⟩
    | exact reads_withByte fun _ => npRow_of (aluN_row _ _)
    | -- a prefix row: the fields of the opcode say which byte it is
      refine reads_plain ⟨rfl, fun _ => ?_⟩
      simp only [IsPrefixByte, ← BitVec.toNat_inj, BitVec.toNat_ofNat]
      simp only [opX, opY, opZ, opP, opQ, imp_false] at *
      omega

theorem opX_eq_three {op : Byte} (h0 : opX op ≠ 0) (h1 : opX op ≠ 1) (h2 : opX op ≠ 2) : opX op = 3 := by
  have := op.isLt
  unfold opX at *; omega

theorem decodeNp_row (op : Byte) (bs : List Byte) : Reads (NpRow op) (decodeNp op bs) := by
  unfold decodeNp
  split
  · exact decodeNp0_row op bs
  · exact decodeNp1_row op bs
  · exact decodeNp2_row op bs
  · exact decodeNp3_row (opX_eq_three ‹_› ‹_› ‹_›) bs

/-! ## Rows of tables `CB` and `ED` (R66 to R68) -/

theorem rotReg_table (y : Nat) (r : Reg8) : (rotReg y r).table = .cb := by unfold rotReg; split <;> rfl
theorem rotMem_table (y : Nat) : (rotMem y).table = .cb := by unfold rotMem; split <;> rfl

theorem decodeCb_table (op : Byte) (bs : List Byte) : Reads (·.table = .cb) (decodeCb op bs) := by
  unfold decodeCb
  split
  · exact reads_plain (rotReg_table _ _)
  · exact reads_plain (rotMem_table _)
  all_goals exact reads_plain rfl

/-- A row of table `ED`, and `LD R,A` only for its opcode. -/
def EdRow (op : Byte) (i : Instr) : Prop := i.table = .ed ∧ (i = .ldRA → op = 0x4F#8)

theorem edRow_of {op : Byte} {i : Instr} (ht : i.table = .ed) (h : i ≠ .ldRA) : EdRow op i := ⟨ht, fun k => absurd k h⟩

theorem decodeEd1_row {op : Byte} (hx : opX op = 1) (bs : List Byte) : Reads (EdRow op) (decodeEd1 op bs) := by
  have hop := op.isLt
  unfold decodeEd1
  repeat' split
  all_goals first
    | exact reads_plain (edRow_of rfl fun k => Instr.noConfusion k)
    | exact reads_withWord fun _ => edRow_of rfl fun k => Instr.noConfusion k
    | -- `LD R,A`: the fields of the opcode say which byte it is
      refine reads_plain ⟨rfl, fun _ => ?_⟩
      simp only [← BitVec.toNat_inj, BitVec.toNat_ofNat]
      simp only [opX, opY, opZ, imp_false] at *
      omega

theorem decodeEd_row (op : Byte) (bs : List Byte) : Reads (EdRow op) (decodeEd op bs) := by
  unfold decodeEd
  split
  · exact decodeEd1_row ‹_› bs
  · unfold decodeEd2
    split <;> exact reads_plain (edRow_of rfl fun k => Instr.noConfusion k)
  · exact reads_plain (edRow_of rfl fun k => Instr.noConfusion k)

/-! ## Rows of tables `DD`, `FD`, `DDCB`, `FDCB` (R71 to R74) -/

/-- A row of table `DD` or `FD`: an instruction of its own, or the entry of table `NP` that its bytes are. -/
def XyRow (ii : Idx) (op : Byte) (bs : List Byte) (i : Instr) : Prop :=
  i.table = ii.table ∧ (effective i = i ∨ ∃ rest, decodeNp op bs = .ok (effective i, rest))

theorem aluIdx_row (y : Nat) (ii : Idx) (d : Byte) :
    (aluIdx y ii d).table = ii.table ∧ effective (aluIdx y ii d) = aluIdx y ii d := by
  unfold aluIdx; split <;> exact ⟨rfl, rfl⟩
theorem aluIih_row (y : Nat) (ii : Idx) : (aluIih y ii).table = ii.table ∧ effective (aluIih y ii) = aluIih y ii := by
  unfold aluIih; split <;> exact ⟨rfl, rfl⟩
theorem aluIil_row (y : Nat) (ii : Idx) : (aluIil y ii).table = ii.table ∧ effective (aluIil y ii) = aluIil y ii := by
  unfold aluIil; split <;> exact ⟨rfl, rfl⟩

theorem xyRow_of {ii : Idx} {op : Byte} {bs : List Byte} {i : Instr} (h : i.table = ii.table ∧ effective i = i) :
    XyRow ii op bs i := ⟨h.1, .inl h.2⟩

theorem decodeXy_row (ii : Idx) (op : Byte) (bs : List Byte) : Reads (XyRow ii op bs) (decodeXy ii op bs) := by
  have hk : Reads (XyRow ii op bs) (decodeKept ii op bs) := reads_decodeKept fun _ hj => ⟨rfl, .inr hj⟩
  unfold decodeXy decodeXy0 decodeXy1 decodeXy2 decodeXy3
  repeat' split
  all_goals first
    | exact hk
    | exact reads_plain (xyRow_of ⟨rfl, rfl⟩)
    | exact reads_withByte fun _ => xyRow_of ⟨rfl, rfl⟩
    | exact reads_withWord fun _ => xyRow_of ⟨rfl, rfl⟩
    | exact reads_withTwo fun _ _ => xyRow_of ⟨rfl, rfl⟩
    | exact reads_plain (xyRow_of (aluIih_row _ _))
    | exact reads_plain (xyRow_of (aluIil_row _ _))
    | exact reads_withByte fun _ => xyRow_of (aluIdx_row _ _ _)

/-- A prefix byte met in table `DD` or `FD` is a row of that table, no kept entry (R71). -/
theorem decodeXy_prefix {ii : Idx} {op : Byte} {bs rest : List Byte} {i : Instr} (h : decodeXy ii op bs = .ok (i, rest))
    (hp : isPrefixRow (effective i) = true) : effective i = i := by
  obtain ⟨-, he | ⟨rest', hj⟩⟩ := decodeXy_row ii op bs i rest h
  · exact he
  · obtain ⟨-, hb⟩ := decodeNp_row op bs _ _ hj
    rcases hb hp with rfl | rfl | rfl | rfl <;> cases h <;> rfl

theorem rotIdx_table (y : Nat) (ii : Idx) (d : Byte) : (rotIdx y ii d).table = ii.tableCb := by
  unfold rotIdx; split <;> rfl
theorem rotIdxReg_table (y : Nat) (ii : Idx) (d : Byte) (r : Reg8) : (rotIdxReg y ii d r).table = ii.tableCb := by
  unfold rotIdxReg; split <;> rfl

theorem decodeXyCb_table (ii : Idx) (d op : Byte) (bs : List Byte) :
    Reads (·.table = ii.tableCb) (decodeXyCb ii d op bs) := by
  unfold decodeXyCb
  split
  · exact reads_plain (rotIdxReg_table _ _ _ _)
  · exact reads_plain (rotIdx_table _ _ _)
  all_goals exact reads_plain rfl

/-! ## Every table -/

/-- Each table reads its own rows. -/
theorem decodeIn_table {tab : Table} {bs rest : List Byte} {i : Instr} (h : decodeIn tab bs = .ok (i, rest)) :
    i.table = tab := by
  unfold decodeIn at h
  split at h
  · exact (decodeNp_row _ _ _ _ h).1
  · exact decodeCb_table _ _ _ _ h
  · exact (decodeEd_row _ _ _ _ h).1
  · exact (decodeXy_row _ _ _ _ _ h).1
  · exact (decodeXy_row _ _ _ _ _ h).1
  · exact decodeXyCb_table _ _ _ _ _ _ h
  · exact decodeXyCb_table _ _ _ _ _ _ h
  · cases h

end Sys2Proof
end

section
/-! PROOFS. The decode state and the refresh counter over one step (spec 10_state.md R21, R28 Inv1, 30_encoding.md R71). -/

namespace Sys2Proof.Machine

/-- A fetch iteration leaves the decode state that the instruction read leaves from `NoPrefix`. -/
theorem fetched_exec_pfx {s t : State} {tab : Table} {i : Instr} {n : Nat} (hf : s.iteration = .fetch tab)
    (h : exec i (fetched s tab n) = .next t) : t.pfx = pfxAfter .noPrefix (effective i) := by
  obtain ⟨hx, hn, -⟩ := exec_effective h
  rw [(exec_controlEffect hn hx).pfx, fetched_pfx hf]

/-! ## Tables without prefix bytes: `CB`, `ED`, `DDCB`, `FDCB` -/

/-- Kept entries and prefix rows are of tables `NP`, `DD`, `FD`, and so is `HALT`. -/
theorem pfxAfter_effective_of_table {i : Instr} (hnp : i.table ≠ .np) (hdd : i.table ≠ .dd) (hfd : i.table ≠ .fd)
    (p : Pfx) : pfxAfter p (effective i) = p := by
  have hxy : ∀ ii : Idx, i.table ≠ ii.table := by rintro (_ | _) <;> assumption
  have he : effective i = i := by
    unfold effective
    split
    · exact absurd rfl (hxy _)
    · rfl
  rw [he]
  unfold pfxAfter
  split
  case h_10 => rfl
  all_goals first
    | exact (hnp rfl).elim
    | exact (hxy _ rfl).elim

/-! ## Tables `DD` and `FD` -/

/-- No row of table `DD` or `FD` leads to table `CB` or to the other index register's table. -/
theorem pfxAfter_of_xy {ii : Idx} {i : Instr} (h : i.table = ii.table) :
    pfxAfter .noPrefix i ≠ .cb ∧ pfxAfter .noPrefix i ≠ pfxXyCb (otherIdx ii) := by
  unfold pfxAfter
  split
  case h_2 => cases ii <;> cases h
  case h_3 jj =>
    obtain rfl : jj = ii := by cases ii <;> cases jj <;> first | rfl | cases h
    cases jj <;> decide
  all_goals cases ii <;> decide

theorem pfxAfter_effective_of_decodeXy {ii : Idx} {op : Byte} {bs rest : List Byte} {i : Instr}
    (h : decodeXy ii op bs = .ok (i, rest)) :
    pfxAfter .noPrefix (effective i) ≠ .cb ∧ pfxAfter .noPrefix (effective i) ≠ pfxXyCb (otherIdx ii) := by
  rcases pfxAfter_cases .noPrefix (effective i) with e | e | e
  · rw [e]; cases ii <;> decide
  · rw [decodeXy_prefix h e]
    exact pfxAfter_of_xy (decodeXy_row _ _ _ _ _ h).1
  · rw [e]; cases ii <;> decide

/-- Settles O5, by the table the fetch reads: a check and a halted spin happen at a boundary only. -/
theorem decodeStateIsResolved : Obligations.DecodeStateIsResolved := by
  intro s t h
  rcases step_cases h with ⟨hi, -⟩ | ⟨hi, -⟩ | ⟨tab, i, rest, hf, hd, hx⟩
  · obtain ⟨hb | hb, -⟩ := (iteration_check s).1 hi <;> simp [hb]
  · obtain ⟨hb, -⟩ := (iteration_spin s).1 hi
    simp [hb]
  · have hp := iteration_fetch_pfx hf
    have ht := decodeIn_table hd
    have hq := fetched_exec_pfx hf hx
    have mid : tab ≠ .np → tab ≠ .dd → tab ≠ .fd → AtBoundary t := fun h1 h2 h3 => by
      subst ht
      exact .inl (hq.trans (pfxAfter_effective_of_table h1 h2 h3 _))
    cases tab
    case np => simp [hp, pfxOf]
    case dd => simpa [hp, pfxOf, hq, pfxXyCb, otherIdx] using pfxAfter_effective_of_decodeXy (ii := .ix) hd
    case fd => simpa [hp, pfxOf, hq, pfxXyCb, otherIdx] using pfxAfter_effective_of_decodeXy (ii := .iy) hd
    all_goals simpa [hp, pfxOf] using mid (by decide) (by decide) (by decide)

/-! ## The refresh counter -/

/-- Counting keeps bit 7 (R21). -/
theorem countedR_bit7 (r : Byte) : (countedR r).getLsbD 7 = r.getLsbD 7 := by simp [countedR]

/-- Counting adds one to the low 7 bits, modulo 128 (R21): of the two masks, one has none of them and the other all. -/
theorem countedR_low (r : Byte) : (countedR r).toNat % 128 = (r.toNat + 1) % 128 := by
  have high : (0x80#8).setWidth 7 = 0#7 := rfl
  have low : (0x7F#8).setWidth 7 = BitVec.allOnes 7 := rfl
  have h : (countedR r).setWidth 7 = r.setWidth 7 + (1#8).setWidth 7 := by
    simp only [countedR, BitVec.setWidth_or, BitVec.setWidth_and, high, low, BitVec.and_zero, BitVec.and_allOnes,
      BitVec.zero_or, BitVec.setWidth_add _ _ (show 7 ≤ 8 by decide)]
  simpa using congrArg BitVec.toNat h

/-- `R` over a step in which it stands still: `K` is what the step must be for that, `C` what it must be for `R` to count. -/
theorem refresh_of_kept {s t : State} {K C : Prop} (hr : t.r = s.r) (hc : ¬ C) :
    t.r.getLsbD 7 = s.r.getLsbD 7 ∧ (K → t.r = s.r) ∧ (C → t.r.toNat % 128 = (s.r.toNat + 1) % 128) :=
  ⟨by rw [hr], fun _ => hr, fun c => absurd c hc⟩

/-- `R` over a step in which it counts, in the same terms. -/
theorem refresh_of_counted {s t : State} {K C : Prop} (hr : t.r = countedR s.r) (hk : ¬ K) :
    t.r.getLsbD 7 = s.r.getLsbD 7 ∧ (K → t.r = s.r) ∧ (C → t.r.toNat % 128 = (s.r.toNat + 1) % 128) :=
  ⟨by rw [hr, countedR_bit7], fun k => absurd k hk, fun _ => by rw [hr, countedR_low]⟩

theorem Entered.refresh {s t : State} {entry : Word} {cost : Nat} {f2 : Bool} (h : Entered entry cost f2 s t) :
    t.r = countedR s.r := by rw [h.1.1]

/-- Where `LD R,A` is what completes, the bytes at `PC` are its own, read in table `ED` (R139). -/
theorem fetch_of_ldRA {s t : State} {tab : Table} {i : Instr} {n : Nat} {rest : List Byte}
    (hd : decodeIn tab s.window = .ok (i, rest)) (hx : exec i (fetched s tab n) = .next t) (he : effective i = .ldRA) :
    tab = .ed ∧ s.read8 s.pc = 0x4F#8 := by
  have hi : i.table = .ed := table_of_effective hx (by decide) (by rw [he]; rfl)
  obtain rfl : tab = .ed := (decodeIn_table hd).symm.trans hi
  have hs : effective i = i := by
    obtain ⟨-, -, e | ⟨e, -⟩⟩ := exec_effective hx
    · exact e
    · rw [he] at e; cases e
  exact ⟨rfl, (decodeEd_row _ _ _ _ hd).2 (hs.symm.trans he)⟩

/-- Settles O12, by the kind of the iteration; a fetch counts as its table does (`fetched_r`), and `ControlEffect` says that only
`LD R,A` writes `R` after that. -/
theorem refreshCounter : Obligations.RefreshCounter := by
  intro s t h
  rcases step_cases h with ⟨hi, hc⟩ | ⟨hi, rfl⟩ | ⟨tab, i, rest, hf, hd, hx⟩
  · obtain ⟨hb, hdue⟩ := (iteration_check s).1 hi
    rcases interruptCheck_cases hc with ⟨ha, entry, cost, f2, k⟩ | ⟨ha, rfl⟩
    · refine .inr (refresh_of_counted k.refresh ?_)
      rcases hb with hb | hb <;> simp [hb, hdue, ha]
    · refine .inr (refresh_of_kept rfl ?_)
      rcases hb with hb | hb <;> simp [hb, hdue, ha]
  · obtain ⟨hb, hdue⟩ := (iteration_spin s).1 hi
    exact .inr (refresh_of_kept rfl (by simp [hb, hdue]))
  · obtain ⟨hp, hdue⟩ := (iteration_fetch s tab).1 hf
    obtain ⟨hx', hn, -⟩ := exec_effective hx
    have hr := (exec_controlEffect hn hx').refresh
    by_cases he : effective i = .ldRA
    · obtain ⟨rfl, hop⟩ := fetch_of_ldRA hd hx he
      exact .inl ⟨hp, hop, by rw [hr, if_pos he, fetched_getA]⟩
    · rw [if_neg he, fetched_r] at hr
      right
      cases tab
      case np => exact refresh_of_counted hr (by simp [hp, pfxOf, hdue])
      case dd => exact refresh_of_counted hr (by simp [hp, pfxOf, AtBoundary])
      case fd => exact refresh_of_counted hr (by simp [hp, pfxOf, AtBoundary])
      all_goals exact refresh_of_kept hr (by simp [hp, pfxOf, AtBoundary])

end Sys2Proof.Machine
end

section
/-! PROOFS. Memory (spec 20_memory.md R40 to R45): what a store, a push and the platform's reaction to a port access leave
unchanged, and from that what every instruction does. -/

namespace Sys2Proof.Machine

open State

/-! ## Words and the stack (R41, R42, R44) -/

/-- A word that was put reads back. -/
theorem Put16.wordAt_eq {a w : Word} {s t : State} (h : Put16 a w s t) : wordAt t a = w := by
  obtain ⟨hl, hh, -⟩ := h
  rw [wordAt, hl, hh]
  exact join_hi_lo w

theorem write8_put (s : State) (a : Word) (v : Byte) : Put8 a v s (s.write8 a v) := (write8_spec s 0 a v).2.of_mem rfl

theorem write16_put (s : State) (a w : Word) : Put16 a w s (s.write16 a w) := (write16_spec s 0 a w).2.of_mem rfl

theorem push16_sp_sub_two (s : State) (w : Word) : (s.push16 w).sp = s.sp - 2#16 := sp_sub_two s.sp

theorem top16_push16 (s : State) (w : Word) : (s.push16 w).top16 = w := by
  rw [top16_eq, push16_sp_sub_two]
  exact (push16_put s w).wordAt_eq

theorem pop16_push16_sp (s : State) (w : Word) : (s.push16 w).pop16.sp = s.sp := by
  rw [pop16_frame, push16_sp_sub_two, BitVec.sub_add_cancel]

/-- Settles O23: `write8_put`, `write16_put` and `push16_put` say what stands where, the words read back by `Put16.wordAt_eq`. -/
theorem memoryLaws : Obligations.MemoryLaws := fun s a v w =>
  ⟨write8_put s a v, write16_put s a w, rfl, (write16_put s a w).wordAt_eq,
    fun h => ⟨wf_write8 s h a v, wf_write16 s h a w, wf_push16 s h w⟩, push16_sp_sub_two s w, push16_put s w,
    top16_push16 s w, pop16_push16_sp s w⟩

/-! ## Cells that are not stored to -/

theorem Memory.read_write_ne (m : Memory) {a x : Word} (h : x ≠ a) (v : Byte) :
    (m.write a.toNat v).read x.toNat = m.read x.toNat := by
  rw [Memory.read_write, if_neg (mt BitVec.eq_of_toNat_eq h)]

section

variable (s : State) {a : Word}

theorem read8_push16_of_not_mem (h : a ∉ [s.sp - 1#16, s.sp - 2#16]) (w : Word) :
    (s.push16 w).read8 a = s.read8 a := by
  simp only [List.mem_cons, List.not_mem_nil, or_false, not_or] at h
  rw [read8_push16, if_neg h.2, if_neg h.1]

theorem read8_ioRead_of_not_mem {p : Word} (h : a ∉ (s.readReply p).2.stores.map (·.1)) :
    (s.ioRead p).read8 a = s.read8 a := (read8_ioRead s p a).trans (byteAfter_of_not_mem h s)

theorem read8_ioWrite_of_not_mem {p : Word} {v : Byte} (h : a ∉ (s.writeReply p v).stores.map (·.1)) :
    (s.ioWrite p v).read8 a = s.read8 a := (read8_ioWrite s p v a).trans (byteAfter_of_not_mem h s)

/-- An input step stores at `HL` only, after the platform (R300, R301). -/
theorem read8_inputStep (k : Step) (hs : a ∉ [s.hl]) (hp : a ∉ (s.readReply s.bc).2.stores.map (·.1)) :
    (inputStep k s).read8 a = s.read8 a :=
  (read8_write8_ne (s.ioRead s.bc) (List.ne_of_not_mem_cons hs) _).trans (read8_ioRead_of_not_mem s hp)

theorem read8_repeatIf (again : Bool) : (repeatIf again s).read8 a = s.read8 a := by cases again <;> rfl

end

/-! ## Every instruction -/

theorem effective_of_not_kept {i : Instr} (hn : ∀ ii k, i ≠ .npUnchanged ii k) : effective i = i := by
  unfold effective
  split
  · exact absurd rfl (hn _ _)
  · rfl

theorem storeCells_effective {i : Instr} (hn : ∀ ii k, effective i ≠ .npUnchanged ii k) (s : State) :
    storeCells (effective i) s = storeCells i s := by
  unfold storeCells; rw [effective_of_not_kept hn]

theorem platformCells_effective {i : Instr} (hn : ∀ ii k, effective i ≠ .npUnchanged ii k) (s : State) :
    platformCells (effective i) s = platformCells i s := by
  unfold platformCells; rw [effective_of_not_kept hn]

/-- Of the instructions that access no port, each changes only the cells it stores to: the pushing ones below `SP`
(`read8_push16_of_not_mem`), the others where they write (`Memory.read_write_ne`). -/
theorem exec_read8_of_not_ioClass {i : Instr} {s t : State} {a : Word} (hn : ∀ ii k, i ≠ .npUnchanged ii k)
    (hio : ioClass i = false) (h : exec i s = .next t) (hs : a ∉ storeCells i s) : t.read8 a = s.read8 a := by
  cases i
  case npUnchanged ii k => exact absurd rfl (hn ii k)
  all_goals first
    | exact Bool.noConfusion (show true = false from hio)
    | obtain rfl := Host.Outcome.next.inj h
  case pushQq | pushIi | call | rst => exact read8_push16_of_not_mem s hs _
  case callCc cc nn =>
    simp only [storeCells, effective] at hs
    split at hs
    · rw [if_pos ‹_›]; exact read8_push16_of_not_mem s hs _
    · rw [if_neg ‹_›]; rfl
  all_goals
    simp only [storeCells, effective, List.mem_cons, List.not_mem_nil, or_false, not_or] at hs
    -- addresses stay words, as `hs` compares them
    simp [State.read8, Memory.read_write_ne, hs, apply_ite State.mem, -Memory.read_write, -BitVec.toNat_add]

/-- Of the instructions that access a port, only the block inputs store anything themselves; the rest is the platform's. -/
theorem exec_read8_of_ioClass {i : Instr} {s t : State} {a : Word} (hn : ∀ ii k, i ≠ .npUnchanged ii k)
    (hio : ioClass i = true) (h : exec i s = .next t) (hs : a ∉ storeCells i s) (hp : a ∉ platformCells i s) :
    t.read8 a = s.read8 a := by
  cases i
  case npUnchanged ii k => exact absurd rfl (hn ii k)
  all_goals first
    | exact Bool.noConfusion (show false = true from hio)
    | obtain rfl := Host.Outcome.next.inj h
  case inAN | inFC => exact read8_ioRead_of_not_mem s hp
  case inRegC r => exact (read8_setR _ r _ a).trans (read8_ioRead_of_not_mem s hp)
  case ini => exact read8_inputStep s fwd hs hp
  case ind => exact read8_inputStep s bwd hs hp
  case inir | indr => exact (read8_repeatIf _ _).trans (read8_inputStep s _ hs hp)
  case otir | otdr => exact (read8_repeatIf _ _).trans (read8_ioWrite_of_not_mem s hp)
  case outNA | outCReg | outCZero | outi | outd => exact read8_ioWrite_of_not_mem s hp

/-- Settles O18: a kept entry stores where the entry of table `NP` does, and that accesses a port or does not. -/
theorem storesOnlyItsCells : Obligations.StoresOnlyItsCells := by
  intro i s t h a hs hp
  obtain ⟨hx, hn, -⟩ := exec_effective h
  rw [← storeCells_effective hn] at hs
  rw [← platformCells_effective hn] at hp
  cases hio : ioClass (effective i) with
  | true => exact exec_read8_of_ioClass hn hio hx hs hp
  | false => exact exec_read8_of_not_ioClass hn hio hx hs

end Sys2Proof.Machine
end

section
/-! PROOFS. The fields of an opcode byte and the tables of field values, in both directions (spec 30_encoding.md R61, R62). -/

namespace Sys2Proof

/-! ## Fields of a byte (R61) -/

theorem opY_lt (op : Byte) : opY op < 8 := Nat.mod_lt _ (by decide)

theorem opZ_lt (op : Byte) : opZ op < 8 := Nat.mod_lt _ (by decide)

theorem opP_lt (op : Byte) : opP op < 4 := Nat.mod_lt _ (by decide)

theorem opX_cases (op : Byte) : opX op = 0 ∨ opX op = 1 ∨ opX op = 2 ∨ opX op = 3 := by
  have := op.isLt
  unfold opX; omega

/-- A byte is its fields `x`, `y`, `z`, and `y` is made of `p` and `q`. -/
theorem byte_fields (op : Byte) :
    op.toNat = 64 * opX op + 8 * opY op + opZ op ∧ opY op = 2 * opP op + opQ op
      ∧ opX op < 4 ∧ opY op < 8 ∧ opZ op < 8 ∧ opP op < 4 ∧ opQ op < 2 := by
  have := op.isLt
  simp only [opX, opY, opZ, opP, opQ]; omega

/-- What a byte must be as a number to be `op`. -/
theorem byte_eq_iff {b op : Byte} : b = op ↔ b.toNat = 64 * opX op + 8 * opY op + opZ op := by
  rw [← BitVec.toNat_inj, (byte_fields op).1]

@[simp] theorem toNat_opY3 (op : Byte) : (opY3 op).toNat = opY op := by
  simp [opY3, opY, Nat.shiftRight_eq_div_pow]

@[simp] theorem toNat_opZ3 (op : Byte) : (opZ3 op).toNat = opZ op := by simp [opZ3, opZ]

theorem opY3_eq_iff {op : Byte} {y : BitVec 3} : opY3 op = y ↔ opY op = y.toNat := by
  rw [← BitVec.toNat_inj, toNat_opY3]

/-! ## The byte with given fields -/

theorem toNat_opc (x y z : Nat) : (opc x y z).toNat = (64 * x + 8 * y + z) % 256 := BitVec.toNat_ofNat ..

theorem opcPQ_eq (x p q z : Nat) : opcPQ x p q z = opc x (2 * p + q) z := by
  unfold opcPQ opc; congr 1; omega

theorem opc_fields {x y z : Nat} (hx : x < 4) (hy : y < 8) (hz : z < 8) :
    opX (opc x y z) = x ∧ opY (opc x y z) = y ∧ opZ (opc x y z) = z := by
  have := byte_fields (opc x y z)
  rw [toNat_opc] at this
  omega

section

variable {x y z : Nat} (hx : x < 4)

include hx

@[simp] theorem opX_opc (hy : y < 8) (hz : z < 8) : opX (opc x y z) = x := (opc_fields hx hy hz).1

@[simp] theorem opY_opc (hy : y < 8) (hz : z < 8) : opY (opc x y z) = y := (opc_fields hx hy hz).2.1

@[simp] theorem opZ_opc (hy : y < 8) (hz : z < 8) : opZ (opc x y z) = z := (opc_fields hx hy hz).2.2

@[simp] theorem opY3_opc (b : BitVec 3) (hz : z < 8) : opY3 (opc x b.toNat z) = b :=
  opY3_eq_iff.2 (opY_opc hx b.isLt hz)

@[simp] theorem opZ3_opc (hy : y < 8) (b : BitVec 3) : opZ3 (opc x y b.toNat) = b := by
  rw [← BitVec.toNat_inj, toNat_opZ3, opZ_opc hx hy b.isLt]

end

@[simp] theorem toNat_lt_eight (b : BitVec 3) : b.toNat < 8 := b.isLt

/-! ## Tables of field values (R62) -/

@[simp] theorem Reg8.code_lt (r : Reg8) : r.code < 8 := by cases r <;> decide

@[simp] theorem RegP.code_lt (p : RegP) : p.code < 8 := by cases p <;> decide

@[simp] theorem reg8Of_code (r : Reg8) : reg8Of r.code = some r := by cases r <;> rfl

@[simp] theorem regPOf_code (p : RegP) : regPOf p.code = some p := by cases p <;> rfl

/-- A field value of table `p` is one of table `r` (R134). -/
theorem exists_reg8Of_code (p : RegP) : ∃ r, reg8Of p.code = some r := by cases p <;> exact ⟨_, rfl⟩

/-- A field value that names a register is its code, and is not the memory operand's 6. -/
theorem reg8Of_eq_some {n : Nat} (hn : n < 8) {r : Reg8} : reg8Of n = some r ↔ r.code = n ∧ n ≠ 6 := by
  interval_cases n <;> cases r <;> decide

theorem reg8Of_eq_none {n : Nat} : reg8Of n = none ↔ n = 6 := by unfold reg8Of; split <;> simp_all

theorem exists_reg8Of {n : Nat} (hn : n < 8) (h6 : n ≠ 6) : ∃ r, reg8Of n = some r ∧ r.code = n := by
  interval_cases n <;> first | exact ⟨_, rfl, rfl⟩ | exact absurd rfl h6

theorem regPOf_eq_some {n : Nat} (hn : n < 8) {p : RegP} : regPOf n = some p ↔ p.code = n ∧ n ≠ 6 := by
  interval_cases n <;> cases p <;> decide

theorem exists_regPOf {n : Nat} (hn : n < 8) (h6 : n ≠ 6) : ∃ p, regPOf n = some p ∧ p.code = n := by
  interval_cases n <;> first | exact ⟨_, rfl, rfl⟩ | exact absurd rfl h6

theorem code_pairOf {n : Nat} (hn : n < 4) : (pairOf n).code = n := by interval_cases n <;> rfl

theorem code_pairQOf {n : Nat} (hn : n < 4) : (pairQOf n).code = n := by interval_cases n <;> rfl

theorem code_pairXOf {n : Nat} (hn : n < 4) : (pairXOf n).code = n := by interval_cases n <;> rfl

theorem code_condOf {n : Nat} (hn : n < 8) : (condOf n).code = n := by interval_cases n <;> rfl

/-! ## Checks on operands, by their codes -/

theorem isHL_eq (r : Reg8) : r.isHL = decide (r.code = 4 ∨ r.code = 5) := by cases r <;> rfl

theorem isHalf_eq (p : RegP) : p.isHalf = decide (p.code = 4 ∨ p.code = 5) := by cases p <;> rfl

theorem jrOk_eq (cc : Cond) : cc.jrOk = decide (cc.code < 4) := by cases cc <;> rfl

theorem pair_eq_hl_iff {p : Pair} : p = .hl ↔ p.code = 2 := by cases p <;> decide

theorem pairQ_eq_hl_iff {p : PairQ} : p = .hl ↔ p.code = 2 := by cases p <;> decide

/-- The opcodes of `NOP*` by their fields (R68). -/
theorem edHole_iff {op : Byte} : edHole op = true ↔
    opX op = 0 ∨ opX op = 3 ∨ opX op = 1 ∧ opZ op = 7 ∧ 6 ≤ opY op ∨ opX op = 2 ∧ (opY op < 4 ∨ 4 ≤ opZ op) := by
  have := byte_fields op
  simp only [edHole, Bool.or_eq_true, Bool.and_eq_true, decide_eq_true_eq, beq_iff_eq]
  omega

/-! ## Fields of one opcode byte as operands -/

section

variable {op : Byte}

@[simp] theorem reg8Of_opY_eq_some {r : Reg8} : reg8Of (opY op) = some r ↔ r.code = opY op ∧ opY op ≠ 6 :=
  reg8Of_eq_some (opY_lt op)

@[simp] theorem reg8Of_opZ_eq_some {r : Reg8} : reg8Of (opZ op) = some r ↔ r.code = opZ op ∧ opZ op ≠ 6 :=
  reg8Of_eq_some (opZ_lt op)

@[simp] theorem code_pairOf_opP : (pairOf (opP op)).code = opP op := code_pairOf (opP_lt op)

@[simp] theorem code_pairQOf_opP : (pairQOf (opP op)).code = opP op := code_pairQOf (opP_lt op)

@[simp] theorem code_pairXOf_opP : (pairXOf (opP op)).code = opP op := code_pairXOf (opP_lt op)

@[simp] theorem code_condOf_opY : (condOf (opY op)).code = opY op := code_condOf (opY_lt op)

@[simp] theorem code_condOf_opY_sub : (condOf (opY op - 4)).code = opY op - 4 :=
  code_condOf (Nat.lt_of_le_of_lt (Nat.sub_le ..) (opY_lt op))

end

end Sys2Proof
end

section
/-! PROOFS. Tables `DD` and `FD` read an opcode as table `NP` does but for those R72 items 1 to 4 replace; an instruction is
kept exactly where its opcode is not replaced (R72 item 5). -/

namespace Sys2Proof

open Machine

/-- The opcodes that tables `DD`/`FD` give a row of their own: `HL`, `(HL)`, `H`, `L` and the prefix bytes (R71, R72). -/
def ReplacedInXY (op : Byte) : Prop :=
  match opX op with
  | 0 => opZ op = 1 ∧ (opY op = 1 ∨ opY op = 3 ∨ opY op = 4 ∨ opY op = 5 ∨ opY op = 7)
      ∨ (opZ op = 2 ∨ opZ op = 3) ∧ (opY op = 4 ∨ opY op = 5)
      ∨ (opZ op = 4 ∨ opZ op = 5 ∨ opZ op = 6) ∧ (opY op = 4 ∨ opY op = 5 ∨ opY op = 6)
  | 1 => opY op = 6 ∧ opZ op ≠ 6 ∨ opY op ≠ 6 ∧ opZ op = 6
      ∨ (opY op ≠ 6 ∧ opZ op ≠ 6) ∧ (opY op = 4 ∨ opY op = 5 ∨ opZ op = 4 ∨ opZ op = 5)
  | 2 => opZ op = 4 ∨ opZ op = 5 ∨ opZ op = 6
  | _ => opZ op = 1 ∧ (opY op = 4 ∨ opY op = 5 ∨ opY op = 7) ∨ opZ op = 3 ∧ (opY op = 1 ∨ opY op = 4)
      ∨ opZ op = 5 ∧ (opY op = 3 ∨ opY op = 4 ∨ opY op = 5 ∨ opY op = 7)

theorem decodeXy_of_not_replaced {op : Byte} (h : ¬ ReplacedInXY op) (ii : Idx) (bs : List Byte) :
    decodeXy ii op bs = decodeKept ii op bs := by
  rcases opX_cases op with hx | hx | hx | hx
  all_goals
    simp only [ReplacedInXY, hx] at h
    simp only [decodeXy, hx]
  · unfold decodeXy0
    split <;> first | rfl | exfalso; omega
  · unfold decodeXy1
    repeat' split
    all_goals first
      | rfl
      | simp only [isHalf_eq, reg8Of_eq_none, reg8Of_opY_eq_some, reg8Of_opZ_eq_some, regPOf_eq_some (opY_lt op),
          regPOf_eq_some (opZ_lt op), Bool.or_eq_true, decide_eq_true_eq] at *
        omega
  · unfold decodeXy2
    split <;> first | rfl | exfalso; omega
  · unfold decodeXy3
    split <;> first | rfl | exfalso; omega

/-! ## What table `NP` reads is kept where the opcode is not replaced -/

theorem aluReg_kept (y : Nat) (r : Reg8) : (aluReg y r).keptInXY = !r.isHL := by unfold aluReg; split <;> rfl

theorem aluMem_kept (y : Nat) : (aluMem y).keptInXY = false := by unfold aluMem; split <;> rfl

theorem aluN_kept (y : Nat) (n : Byte) : (aluN y n).keptInXY = true := by unfold aluN; split <;> rfl

theorem accOp_kept (y : Nat) : (accOp y).keptInXY = true := by unfold accOp; split <;> rfl

theorem kept_iff {j : Instr} {b : Bool} {P : Prop} (hk : j.keptInXY = b) (h : b = true ↔ P) :
    j.keptInXY = true ↔ P := hk ▸ h

/-- Both sides depend on the fields that led to the row. -/
theorem decodeNp_kept (op : Byte) (bs : List Byte) :
    Reads (fun j => j.keptInXY = true ↔ ¬ ReplacedInXY op) (decodeNp op bs) := by
  have hf := byte_fields op
  rcases opX_cases op with hx | hx | hx | hx
  all_goals
    simp only [ReplacedInXY, decodeNp, hx, decodeNp0, decodeNp1, decodeNp2, decodeNp3]
    repeat' split
  all_goals first
    | refine reads_plain (kept_iff (aluReg_kept ..) ?_)
    | refine reads_plain (kept_iff (aluMem_kept _) ?_)
    | refine reads_plain (kept_iff (accOp_kept _) ?_)
    | refine reads_withByte fun _ => kept_iff (aluN_kept ..) ?_
    | refine reads_plain ?_
    | refine reads_withByte fun _ => ?_
    | refine reads_withWord fun _ => ?_
  all_goals simp [Instr.keptInXY, isHL_eq, jrOk_eq, pair_eq_hl_iff, pairQ_eq_hl_iff, reg8Of_eq_none] at *
  all_goals omega

/-- A kept instruction is a well-formed row of table `NP` (R72 item 5). -/
theorem table_of_kept {j : Instr} (h : j.keptInXY = true) : j.table = .np ∧ WellFormed j := by
  cases j
  case jrCc => exact ⟨rfl, h⟩
  all_goals first
    | exact ⟨rfl, rfl⟩
    | exact Bool.noConfusion h

end Sys2Proof
end

section
/-! PROOFS. Decoding is total and unambiguous (spec 30_encoding.md R69): what a table reads is well-formed and encodes to the
bytes read. A row's bytes are compared as numbers: the byte `64x + 8y + z` against the fields that led to the row. -/

namespace Sys2Proof

open Machine

/-- The row admits its operands, and these are its bytes. -/
def IsRow (bytes : List Byte) (i : Instr) : Prop := WellFormed i ∧ encodeEntry i = bytes

/-- The result is a well-formed instruction and the bytes after it, together the bytes given. -/
def ReadsBack (r : DecodeResult) (bytes : List Byte) : Prop :=
  ∃ i rest, r = .ok (i, rest) ∧ WellFormed i ∧ encodeEntry i ++ rest = bytes

/-! ## One row -/

section

variable {bs : List Byte} {b op b1 b2 : Byte} (hb : b.toNat = 64 * opX op + 8 * opY op + opZ op)

include hb

theorem readsBack_plain {i : Instr} (h : IsRow [b] i) : ReadsBack (plain i bs) (op :: bs) :=
  ⟨i, bs, rfl, h.1, by rw [h.2, byte_eq_iff.2 hb]; rfl⟩

/-- Tables `DDCB`, `FDCB`: the displacement comes before the opcode byte (R74). -/
theorem readsBack_afterDisplacement {i : Instr} {d : Byte} (h : IsRow [d, b] i) :
    ReadsBack (plain i bs) (d :: op :: bs) :=
  ⟨i, bs, rfl, h.1, by rw [h.2, byte_eq_iff.2 hb]; rfl⟩

theorem readsBack_withByte {k : Byte → Instr} (h : ∀ n, IsRow [b, n] (k n)) :
    ReadsBack (withByte k (b1 :: bs)) (op :: b1 :: bs) :=
  ⟨k b1, bs, rfl, (h b1).1, by rw [(h b1).2, byte_eq_iff.2 hb]; rfl⟩

theorem readsBack_withWord {k : Word → Instr} (h : ∀ nn, IsRow [b, lo nn, hi nn] (k nn)) :
    ReadsBack (withWord k (b1 :: b2 :: bs)) (op :: b1 :: b2 :: bs) :=
  ⟨k (join b2 b1), bs, rfl, (h _).1, by rw [(h _).2, byte_eq_iff.2 hb, lo_join, hi_join]; rfl⟩

theorem readsBack_withTwo {k : Byte → Byte → Instr} (h : ∀ d n, IsRow [b, d, n] (k d n)) :
    ReadsBack (withTwo k (b1 :: b2 :: bs)) (op :: b1 :: b2 :: bs) :=
  ⟨k b1 b2, bs, rfl, (h b1 b2).1, by rw [(h b1 b2).2, byte_eq_iff.2 hb]; rfl⟩

end

/-! ## Rows of tables `alu` and `rot` (R62) -/

section

variable (op : Byte)

theorem accOp_isRow : IsRow [opc 0 (opY op) 7] (accOp (opY op)) := by
  have := opY_lt op
  interval_cases opY op <;> exact ⟨rfl, rfl⟩

theorem aluReg_isRow (r : Reg8) : IsRow [opc 2 (opY op) r.code] (aluReg (opY op) r) := by
  have := opY_lt op
  interval_cases opY op <;> exact ⟨rfl, rfl⟩

theorem aluMem_isRow : IsRow [opc 2 (opY op) 6] (aluMem (opY op)) := by
  have := opY_lt op
  interval_cases opY op <;> exact ⟨rfl, rfl⟩

theorem aluN_isRow (n : Byte) : IsRow [opc 3 (opY op) 6, n] (aluN (opY op) n) := by
  have := opY_lt op
  interval_cases opY op <;> exact ⟨rfl, rfl⟩

theorem aluIdx_isRow (ii : Idx) (d : Byte) : IsRow [opc 2 (opY op) 6, d] (aluIdx (opY op) ii d) := by
  have := opY_lt op
  interval_cases opY op <;> exact ⟨rfl, rfl⟩

theorem aluIih_isRow (ii : Idx) : IsRow [opc 2 (opY op) 4] (aluIih (opY op) ii) := by
  have := opY_lt op
  interval_cases opY op <;> exact ⟨rfl, rfl⟩

theorem aluIil_isRow (ii : Idx) : IsRow [opc 2 (opY op) 5] (aluIil (opY op) ii) := by
  have := opY_lt op
  interval_cases opY op <;> exact ⟨rfl, rfl⟩

theorem rotReg_isRow (r : Reg8) : IsRow [opc 0 (opY op) r.code] (rotReg (opY op) r) := by
  have := opY_lt op
  interval_cases opY op <;> exact ⟨rfl, rfl⟩

theorem rotMem_isRow : IsRow [opc 0 (opY op) 6] (rotMem (opY op)) := by
  have := opY_lt op
  interval_cases opY op <;> exact ⟨rfl, rfl⟩

theorem rotIdx_isRow (ii : Idx) (d : Byte) : IsRow [d, opc 0 (opY op) 6] (rotIdx (opY op) ii d) := by
  have := opY_lt op
  interval_cases opY op <;> exact ⟨rfl, rfl⟩

theorem rotIdxReg_isRow (ii : Idx) (d : Byte) (r : Reg8) :
    IsRow [d, opc 0 (opY op) r.code] (rotIdxReg (opY op) ii d r) := by
  have := opY_lt op
  interval_cases opY op <;> exact ⟨rfl, rfl⟩

end

/-! ## Table `NP` -/

theorem decodeNp_readsBack (op b1 b2 : Byte) : ReadsBack (decodeNp op [b1, b2]) [op, b1, b2] := by
  have hf := byte_fields op
  unfold decodeNp decodeNp0 decodeNp1 decodeNp2 decodeNp3
  repeat' split
  all_goals first
    | refine readsBack_plain ?_ ⟨rfl, rfl⟩
    | refine readsBack_withByte ?_ fun _ => ⟨rfl, rfl⟩
    | refine readsBack_withWord ?_ fun _ => ⟨rfl, rfl⟩
    | refine readsBack_plain ?_ (aluReg_isRow ..)
    | refine readsBack_plain ?_ (aluMem_isRow _)
    | refine readsBack_plain ?_ (accOp_isRow _)
    | refine readsBack_withByte ?_ (aluN_isRow _)
    | -- `JR cc,e`: not every condition (R324)
      refine readsBack_withByte (k := .jrCc _) ?_ fun _ => ⟨show Cond.jrOk _ = true from ?_, rfl⟩
  all_goals simp [toNat_opc, opcPQ_eq, jrOk_eq, reg8Of_eq_none] at *
  all_goals omega

/-! ## Tables `CB`, `DDCB`, `FDCB` -/

theorem decodeCb_readsBack (op : Byte) (bs : List Byte) : ReadsBack (decodeCb op bs) (op :: bs) := by
  have hf := byte_fields op
  unfold decodeCb
  split
  all_goals first
    | refine readsBack_plain ?_ ⟨rfl, rfl⟩
    | refine readsBack_plain ?_ (rotReg_isRow ..)
    | refine readsBack_plain ?_ (rotMem_isRow _)
  all_goals simp [toNat_opc, reg8Of_eq_none] at *
  all_goals omega

theorem decodeXyCb_readsBack (ii : Idx) (d op : Byte) (bs : List Byte) :
    ReadsBack (decodeXyCb ii d op bs) (d :: op :: bs) := by
  have hf := byte_fields op
  unfold decodeXyCb
  split
  all_goals first
    | refine readsBack_afterDisplacement ?_ ⟨rfl, rfl⟩
    | refine readsBack_afterDisplacement ?_ (rotIdxReg_isRow ..)
    | refine readsBack_afterDisplacement ?_ (rotIdx_isRow ..)
  all_goals simp [toNat_opc, reg8Of_eq_none] at *
  all_goals omega

/-! ## Table `ED` -/

/-- Every hole is read as `NOP*` (R68). -/
theorem decodeEd_of_hole {op : Byte} (h : edHole op = true) (bs : List Byte) : decodeEd op bs = plain (.nopEd op) bs := by
  rcases edHole_iff.1 h with hx | hx | ⟨hx, hz, hy⟩ | ⟨hx, h⟩
  all_goals simp only [decodeEd, hx]
  · simp only [decodeEd1, hz]
    split <;> first | rfl | exfalso; omega
  · unfold decodeEd2
    split <;> first | rfl | exfalso; omega

theorem decodeEd1_readsBack {op : Byte} (hx : opX op = 1) (b1 b2 : Byte) :
    ReadsBack (decodeEd1 op [b1, b2]) [op, b1, b2] := by
  have hf := byte_fields op
  unfold decodeEd1
  repeat' split
  all_goals first
    | refine readsBack_plain ?_ ⟨rfl, rfl⟩
    | refine readsBack_withWord ?_ fun _ => ⟨rfl, rfl⟩
    | -- `RETN`, `IM`, `NOP*`: not every value of the field the row ignores
      refine readsBack_plain ?_ ⟨?_, rfl⟩
  all_goals simp [WellFormed, Instr.wf, toNat_opc, opcPQ_eq, edHole_iff, opY3_eq_iff, reg8Of_eq_none] at *
  all_goals omega

/-- The sixteen block instructions (R62 table `bli`). -/
theorem decodeEd2_readsBack {op : Byte} (hx : opX op = 2) (hy : 4 ≤ opY op) (hz : opZ op < 4) (bs : List Byte) :
    ReadsBack (decodeEd2 op bs) (op :: bs) := by
  obtain hy | hy | hy | hy : opY op = 4 ∨ opY op = 5 ∨ opY op = 6 ∨ opY op = 7 := by
    have := opY_lt op
    omega
  all_goals
    obtain hz | hz | hz | hz : opZ op = 0 ∨ opZ op = 1 ∨ opZ op = 2 ∨ opZ op = 3 := by omega
    all_goals
      simp only [decodeEd2, hy, hz]
      exact readsBack_plain (by rw [hx, hy, hz]; rfl) ⟨rfl, rfl⟩

theorem decodeEd_readsBack (op b1 b2 : Byte) : ReadsBack (decodeEd op [b1, b2]) [op, b1, b2] := by
  by_cases h : edHole op = true
  · rw [decodeEd_of_hole h]
    exact readsBack_plain (byte_fields op).1 ⟨h, rfl⟩
  · rw [edHole_iff] at h
    rcases opX_cases op with hx | hx | hx | hx
    · omega
    · simpa only [decodeEd, hx] using decodeEd1_readsBack hx b1 b2
    · simpa only [decodeEd, hx] using decodeEd2_readsBack hx (by omega) (by omega) [b1, b2]
    · omega

/-! ## Tables `DD` and `FD` -/

theorem decodeKept_readsBack {op : Byte} (h : ¬ ReplacedInXY op) (ii : Idx) (b1 b2 : Byte) :
    ReadsBack (decodeKept ii op [b1, b2]) [op, b1, b2] := by
  obtain ⟨j, rest, hj, -, he⟩ := decodeNp_readsBack op b1 b2
  exact ⟨.npUnchanged ii j, rest, by rw [decodeKept, hj], (decodeNp_kept op _ j rest hj).2 h, he⟩

/-- A replaced opcode with `x = 1`: one operand is `(II+d)`, or one of two registers is `IIH` or `IIL` (R72 items 1, 3). -/
theorem decodeXy1_readsBack {op : Byte} (hx : opX op = 1) (h : ReplacedInXY op) (ii : Idx) (b1 b2 : Byte) :
    ReadsBack (decodeXy1 ii op [b1, b2]) [op, b1, b2] := by
  have hf := byte_fields op
  simp only [ReplacedInXY, hx] at h
  rcases h with ⟨hy, hz⟩ | ⟨hy, hz⟩ | ⟨⟨hy, hz⟩, h⟩
  · obtain ⟨r, hr, hc⟩ := exists_reg8Of (opZ_lt op) hz
    simp only [decodeXy1, reg8Of_eq_none.2 hy, hr]
    refine readsBack_withByte ?_ fun _ => ⟨rfl, rfl⟩
    rw [toNat_opc]; omega
  · obtain ⟨r, hr, hc⟩ := exists_reg8Of (opY_lt op) hy
    simp only [decodeXy1, reg8Of_eq_none.2 hz, hr]
    refine readsBack_withByte ?_ fun _ => ⟨rfl, rfl⟩
    rw [toNat_opc]; omega
  · obtain ⟨r, hr, -⟩ := exists_reg8Of (opY_lt op) hy
    obtain ⟨r', hr', -⟩ := exists_reg8Of (opZ_lt op) hz
    obtain ⟨p, hp, hc⟩ := exists_regPOf (opY_lt op) hy
    obtain ⟨p', hp', hc'⟩ := exists_regPOf (opZ_lt op) hz
    have hw : (p.isHalf || p'.isHalf) = true := by
      rw [isHalf_eq, isHalf_eq, Bool.or_eq_true, decide_eq_true_eq, decide_eq_true_eq]; omega
    simp only [decodeXy1, hr, hr', hp, hp', if_pos hw]
    refine readsBack_plain ?_ ⟨hw, rfl⟩
    rw [toNat_opc]; omega

theorem decodeXy_readsBack (ii : Idx) (op b1 b2 : Byte) : ReadsBack (decodeXy ii op [b1, b2]) [op, b1, b2] := by
  by_cases h : ReplacedInXY op
  case neg => exact decodeXy_of_not_replaced h ii _ ▸ decodeKept_readsBack h ii b1 b2
  have hf := byte_fields op
  rcases opX_cases op with hx | hx | hx | hx
  all_goals simp only [decodeXy, hx]
  case inr.inl => exact decodeXy1_readsBack hx h ii b1 b2
  all_goals simp only [ReplacedInXY, hx] at h
  · rcases h with ⟨hz, hy | hy | hy | hy | hy⟩ | ⟨hz | hz, hy | hy⟩ | ⟨hz | hz | hz, hy | hy | hy⟩
    all_goals simp only [decodeXy0, hy, hz]
    all_goals first
      | refine readsBack_plain ?_ ⟨rfl, rfl⟩
      | refine readsBack_withByte ?_ fun _ => ⟨rfl, rfl⟩
      | refine readsBack_withWord ?_ fun _ => ⟨rfl, rfl⟩
      | refine readsBack_withTwo ?_ fun _ _ => ⟨rfl, rfl⟩
    all_goals simp [toNat_opc, opcPQ_eq, hx, hy, hz]
    -- `ADD II,pp` keeps a field
    all_goals omega
  · rcases h with hz | hz | hz <;> simp only [decodeXy2, hz]
    · exact readsBack_plain (by rw [toNat_opc]; omega) (aluIih_isRow ..)
    · exact readsBack_plain (by rw [toNat_opc]; omega) (aluIil_isRow ..)
    · exact readsBack_withByte (by rw [toNat_opc]; omega) (aluIdx_isRow op ii)
  · rcases h with ⟨hz, hy | hy | hy⟩ | ⟨hz, hy | hy⟩ | ⟨hz, hy | hy | hy | hy⟩
    all_goals
      simp only [decodeXy3, hy, hz]
      exact readsBack_plain (by rw [hx, hy, hz]; rfl) ⟨rfl, rfl⟩

/-! ## Every table -/

theorem decodeIn_readsBack (t : Table) (b0 b1 b2 : Byte) : ReadsBack (decodeIn t [b0, b1, b2]) [b0, b1, b2] := by
  cases t
  case np => exact decodeNp_readsBack b0 b1 b2
  case cb => exact decodeCb_readsBack b0 [b1, b2]
  case ed => exact decodeEd_readsBack b0 b1 b2
  case dd => exact decodeXy_readsBack .ix b0 b1 b2
  case fd => exact decodeXy_readsBack .iy b0 b1 b2
  case ddcb => exact decodeXyCb_readsBack .ix b0 b1 [b2]
  case fdcb => exact decodeXyCb_readsBack .iy b0 b1 [b2]

/-- Settles O3, by the table that reads: each reads its own rows (`decodeIn_table`), and those read back. -/
theorem decodeIsTotal : Obligations.DecodeIsTotal := by
  intro t b0 b1 b2
  obtain ⟨i, rest, hi, hw, he⟩ := decodeIn_readsBack t b0 b1 b2
  exact ⟨i, rest, hi, hw, decodeIn_table hi, he⟩

end Sys2Proof
end

section
/-! PROOFS. Decoding gives an encoded instruction back, whatever bytes follow (spec 30_encoding.md R60 to R74), and the rows that
are no instruction of their own: prefix bytes and kept entries (R70 to R72). -/

namespace Sys2Proof

open Machine

/-! ## One entry -/

/-- The two bytes of an operand word, read low byte first, are the word (R63). -/
theorem withWord_lo_hi (k : Word → Instr) (nn : Word) (bs : List Byte) :
    withWord k (lo nn :: hi nn :: bs) = .ok (k nn, bs) := by
  rw [withWord, join_hi_lo]

theorem decodeIn_xy (ii : Idx) (op : Byte) (bs : List Byte) : decodeIn ii.table (op :: bs) = decodeXy ii op bs := by
  cases ii <;> rfl

theorem decodeIn_xyCb (ii : Idx) (d op : Byte) (bs : List Byte) :
    decodeIn ii.tableCb (d :: op :: bs) = decodeXyCb ii d op bs := by
  cases ii <;> rfl

/-- A kept entry is read from the bytes of the entry of table `NP` (R72 item 5). -/
theorem decodeIn_of_kept {j : Instr} {bs rest : List Byte} (h : decodeIn .np bs = .ok (j, rest))
    (hk : j.keptInXY = true) (ii : Idx) : decodeIn ii.table bs = .ok (.npUnchanged ii j, rest) := by
  cases bs with
  | nil => cases h
  | cons op bs =>
    have hr := (decodeNp_kept op bs j rest h).1 hk
    rw [decodeIn_xy, decodeXy_of_not_replaced hr, decodeKept, show decodeNp op bs = _ from h]

/-- The fields of `LD p,p'` come back where one of them is `IIH` or `IIL` (R134). -/
theorem decodeXy_ldPP (ii : Idx) {p p' : RegP} (hw : (p.isHalf || p'.isHalf) = true) (bs : List Byte) :
    decodeXy ii (opc 1 p.code p'.code) bs = .ok (.ldPP ii p p', bs) := by
  obtain ⟨r, hr⟩ := exists_reg8Of_code p
  obtain ⟨r', hr'⟩ := exists_reg8Of_code p'
  obtain ⟨hx, hy, hz⟩ := opc_fields (show 1 < 4 by decide) p.code_lt p'.code_lt
  simp only [decodeXy, decodeXy1, hx, hy, hz, hr, hr', regPOf_code, if_pos hw, plain]

/-- The row's table reads its bytes as the row: by the operands that the opcode byte holds, or the table of holes. -/
theorem decodeIn_encodeEntry {i : Instr} (hw : WellFormed i) (rest : List Byte) :
    decodeIn i.table (encodeEntry i ++ rest) = .ok (i, rest) := by
  induction i
  case npUnchanged ii j ih =>
    obtain ⟨ht, hj⟩ := table_of_kept hw
    exact decodeIn_of_kept (ht ▸ ih hj) hw ii
  case nopEd op => exact decodeEd_of_hole hw rest
  case ldPP ii p p' => exact (decodeIn_xy ..).trans (decodeXy_ldPP ii hw rest)
  -- a field that only some values are admitted for
  case jrCc cc e => cases cc <;> first | rfl | cases hw
  case im0 y =>
    obtain ((rfl | rfl) | rfl) | rfl : ((y = 0#3 ∨ y = 1#3) ∨ y = 4#3) ∨ y = 5#3 := by
      simpa [WellFormed, Instr.wf] using hw
    all_goals rfl
  case im1 y =>
    obtain rfl | rfl : y = 2#3 ∨ y = 6#3 := by simpa [WellFormed, Instr.wf] using hw
    all_goals rfl
  case im2 y =>
    obtain rfl | rfl : y = 3#3 ∨ y = 7#3 := by simpa [WellFormed, Instr.wf] using hw
    all_goals rfl
  case retn y =>
    have hy : y ≠ 1#3 := by simpa [WellFormed, Instr.wf] using hw
    have hn : y.toNat ≠ 1 := fun h => hy (BitVec.eq_of_toNat_eq h)
    -- `hn` rules out the row of `RETI`
    change decodeEd _ rest = _
    simp [decodeEd, decodeEd1, plain]
  -- a field of three bits
  case rst =>
    change decodeNp _ rest = _
    simp [decodeNp, decodeNp3, plain]
  case neg =>
    change decodeEd _ rest = _
    simp [decodeEd, decodeEd1, plain]
  case bitReg | bitMem | resReg | resMem | setReg | setMem =>
    change decodeCb _ rest = _
    simp [decodeCb, reg8Of_eq_none.2, plain]
  case bitIdx | resIdx | resIdxReg | setIdx | setIdxReg =>
    refine (decodeIn_xyCb ..).trans ?_
    simp [decodeXyCb, reg8Of_eq_none.2, plain]
  -- a word after the opcode byte
  case ldMemNnHl | ldMemNnA | ldHlMemNn | ldAMemNn | jp | call => exact withWord_lo_hi ..
  case ldSsNn ss nn | ldSsMemNn ss nn => cases ss <;> exact withWord_lo_hi ..
  case ldMemNnSs nn ss => cases ss <;> exact withWord_lo_hi (fun nn => .ldMemNnSs nn _) nn rest
  case jpCc cc nn | callCc cc nn => cases cc <;> exact withWord_lo_hi ..
  case ldIiNn ii nn | ldIiMemNn ii nn => cases ii <;> exact withWord_lo_hi ..
  case ldMemNnIi nn ii => cases ii <;> exact withWord_lo_hi (fun nn => .ldMemNnIi nn _) nn rest
  -- a register, a pair or a condition in the opcode byte
  case ldRegReg r r' => cases r <;> cases r' <;> rfl
  case incReg r | decReg r | ldRegN r n | ldRegMem r | ldMemReg r | addReg r | adcReg r | subReg r | sbcReg r | andReg r
      | xorReg r | orReg r | cpReg r | rlcReg r | rrcReg r | rlReg r | rrReg r | slaReg r | sraReg r | sllReg r | srlReg r
      | inRegC r | outCReg r => cases r <;> rfl
  case addHlSs p | incSs p | decSs p | sbcHlSs p | adcHlSs p | popQq p | pushQq p => cases p <;> rfl
  case retCc cc => cases cc <;> rfl
  case addIiPp ii p => cases ii <;> cases p <;> rfl
  case ldRegIdx r ii d | ldIdxReg ii d r | rlcIdxReg ii d r | rrcIdxReg ii d r | rlIdxReg ii d r | rrIdxReg ii d r
      | slaIdxReg ii d r | sraIdxReg ii d r | sllIdxReg ii d r | srlIdxReg ii d r => cases ii <;> cases r <;> rfl
  -- a fixed opcode byte, in one table or in those of both index registers
  all_goals first
    | rfl
    | rename Idx => ii
      cases ii <;> rfl

/-! ## From the first prefix byte on -/

/-- Prefix bytes lead to their table (R70, R71). -/
theorem decodeFrom_prefixBytes (t : Table) (bs : List Byte) :
    decodeFrom .np (t.prefixBytes ++ bs) = decodeFrom t bs := by
  cases t <;> rfl

/-- What a table reads where a prefix byte stands is a prefix row. -/
theorem isPrefixRow_of_nextTable {t t' : Table} {op : Byte} {bs rest : List Byte} {i : Instr}
    (hn : nextTable t op = some t') (h : decodeIn t (op :: bs) = .ok (i, rest)) : isPrefixRow i = true := by
  cases t
  case np | dd | fd =>
    simp only [nextTable] at hn
    split_ifs at hn with h1 h2 h3 h4
    all_goals
      subst op
      cases h
      rfl
  all_goals cases hn

/-- Decoding goes no further than a table that reads an instruction of its own. -/
theorem decodeFrom_of_decodeIn {t : Table} {bs rest : List Byte} {i : Instr} (h : decodeIn t bs = .ok (i, rest))
    (hp : isPrefixRow i = false) : decodeFrom t bs = .ok (i, rest) := by
  cases bs with
  | nil => cases t <;> cases h
  | cons op bs =>
    cases hn : nextTable t op with
    | none => rw [decodeFrom, hn]; exact h
    | some t' => exact absurd (hp.symm.trans (isPrefixRow_of_nextTable hn h)) Bool.false_ne_true

/-- Settles O2: the row's table reads the entry back (`decodeIn_encodeEntry`), and its prefix bytes lead to that table. -/
theorem decodeOfEncode : Obligations.DecodeOfEncode := by
  intro i rest hw
  have h := decodeIn_encodeEntry hw rest
  refine ⟨h, fun hp => ?_⟩
  rw [decode, encode, List.append_assoc, decodeFrom_prefixBytes]
  exact decodeFrom_of_decodeIn h hp

/-! ## Words of the spec -/

/-- Settles O1: the decoder computes each. -/
theorem specWordsDecode : Obligations.SpecWordsDecode :=
  ⟨rfl, rfl, rfl, rfl, rfl, rfl, rfl, rfl, rfl, rfl, rfl, rfl, rfl⟩

end Sys2Proof

namespace Sys2Proof.Machine

/-! ## Kept entries and prefix bytes -/

/-- Every kept entry has a meaning (R72 item 5). -/
theorem exec_kept {j : Instr} (h : j.keptInXY = true) (ii : Idx) (s : State) :
    ∃ t, exec (.npUnchanged ii j) s = .next t := by
  cases j
  all_goals first
    | exact ⟨_, rfl⟩
    | exact Bool.noConfusion h

theorem encode_of_table_np {i : Instr} (h : i.table = .np) : encode i = encodeEntry i := by rw [encode, h]; rfl

theorem encode_npUnchanged (ii : Idx) (i : Instr) : encode (.npUnchanged ii i) = xyByte ii :: encodeEntry i := by
  cases ii <;> rfl

/-- Settles O60: a kept entry completes (`exec_kept`), and what completes is the entry of table `NP` (`exec_npUnchanged`). -/
theorem keptEntries : Obligations.KeptEntries := by
  intro ii i s hw
  obtain ⟨t, ht⟩ := exec_kept hw ii s
  have hnp := (table_of_kept hw).1
  exact ⟨hnp, by rw [encode_npUnchanged, encode_of_table_np hnp], t, ht, (exec_npUnchanged ht).1⟩

/-- Settles O59: each prefix row is its byte, and its meaning writes the decode state and the counter only. -/
theorem prefixBytes : Obligations.PrefixBytes := by
  intro s
  refine ⟨⟨rfl, rfl⟩, ⟨rfl, rfl⟩, ⟨rfl, rfl⟩, ⟨rfl, rfl⟩, ⟨rfl, rfl⟩, ⟨rfl, rfl⟩,
    fun ii => ?_, fun ii => ?_, fun ii => ?_⟩
  all_goals cases ii <;> exact ⟨rfl, rfl⟩

end Sys2Proof.Machine
end

section
/-! PROOFS. The dispatch loop (spec 40_dispatch.md R91 to R97, R110): a fetch by the table of the decode state, the halted core,
the exit of `run`, the conditions. -/

namespace Sys2Proof.Machine

/-! ## Fetching (R94 to R97) -/

/-- What a table reads at `PC` runs, if the decode state is the table's and, at a boundary, no check is due. -/
theorem step_of_decodeIn {s : State} {tab : Table} {i : Instr} {rest : List Byte} (hp : s.pfx = pfxOf tab)
    (hc : tab = .np → ¬ CheckDue s) (h : decodeIn tab s.window = .ok (i, rest)) :
    step s = exec i (fetched s tab (3 - rest.length)) :=
  step_fetch ((iteration_fetch s tab).2 ⟨hp, hc⟩) h

/-- Settles O4: `step_of_decodeIn` at each table, whose `fetched` is the state the statement writes out. -/
theorem stepRunsDecodedInstruction : Obligations.StepRunsDecodedInstruction := by
  intro s i rest
  exact ⟨fun hp hc h => step_of_decodeIn (tab := .np) hp (fun _ => hc) h,
    fun hp h => step_of_decodeIn (tab := .cb) hp nofun h, fun hp h => step_of_decodeIn (tab := .ed) hp nofun h,
    fun hp h => step_of_decodeIn (tab := .dd) hp nofun h, fun hp h => step_of_decodeIn (tab := .fd) hp nofun h,
    fun hp h => step_of_decodeIn (tab := .ddcb) hp nofun h, fun hp h => step_of_decodeIn (tab := .fdcb) hp nofun h⟩

/-! ## The halted core (R93) -/

theorem step_of_halt {s : State} (hp : s.pfx = .halt) (hc : ¬ CheckDue s) : step s = .next s.haltSpin :=
  step_spin ((iteration_spin s).2 ⟨hp, hc⟩)

/-- An acceptance wakes the core (R404). -/
theorem Entered.pfx {s t : State} {entry : Word} {cost : Nat} {f2 : Bool} (h : Entered entry cost f2 s t) :
    t.pfx = .noPrefix := by rw [h.1.1]

/-- A halted core fetches nothing. -/
theorem iteration_ne_fetch_of_halt {s : State} (hp : s.pfx = .halt) (tab : Table) : s.iteration ≠ .fetch tab := by
  intro hf
  have hq := (iteration_fetch_pfx hf).symm.trans hp
  cases tab <;> cases hq

/-- Settles O14: a halted core that stays halted made a check that accepted nothing, or it spun. -/
theorem haltedCore : Obligations.HaltedCore := by
  intro s hp
  refine ⟨step_of_halt hp, fun t h ht => ?_⟩
  rcases step_cases h with ⟨-, hc⟩ | ⟨-, rfl⟩ | ⟨tab, i, rest, hf, -, -⟩
  · rcases interruptCheck_cases hc with ⟨-, entry, cost, f2, k⟩ | ⟨-, rfl⟩
    · exact absurd (k.pfx.symm.trans ht) (by decide)
    · rfl
  · rfl
  · exact absurd hf (iteration_ne_fetch_of_halt hp tab)

/-! ## The target of the run (R92) -/

@[simp] theorem fetched_target (s : State) (tab : Table) (n : Nat) : (fetched s tab n).target = s.target := by
  cases tab <;> rfl

theorem Entered.target {s t : State} {entry : Word} {cost : Nat} {f2 : Bool} (h : Entered entry cost f2 s t) :
    t.target = s.target := by rw [h.1.1]

/-- The instructions that write control components do not write the target. -/
theorem exec_target_of_writesControl {i : Instr} {s t : State} (hc : writesControl i = true) (h : exec i s = .next t) :
    t.target = s.target := by
  cases i
  all_goals first
    | exact Bool.noConfusion (show false = true from hc)
    | obtain rfl := Host.Outcome.next.inj h
  all_goals rfl

/-- No instruction writes the target of the run in progress. -/
theorem exec_target {i : Instr} {s t : State} (h : exec i s = .next t) : t.target = s.target := by
  obtain ⟨hx, hn, -⟩ := exec_effective h
  cases hc : writesControl (effective i) with
  | true => exact exec_target_of_writesControl hc hx
  | false =>
    cases hp : ioClass (effective i) with
    | true =>
      obtain ⟨k, -⟩ := exec_port hn hp hx
      rw [k]
    | false => rw [exec_ordinary hn hc hp hx]

theorem step_target {s t : State} (h : step s = .next t) : t.target = s.target := by
  rcases step_cases h with ⟨-, hc⟩ | ⟨-, rfl⟩ | ⟨tab, i, rest, -, -, hx⟩
  · rcases interruptCheck_cases hc with ⟨-, entry, cost, f2, k⟩ | ⟨-, rfl⟩
    · exact k.target
    · rfl
  · rfl
  · exact (exec_target hx).trans (fetched_target s tab _)

/-! ## `run` (R92) -/

/-- The exit test of `run`. -/
def RunDone (s : State) : Prop := AtBoundary s ∧ s.target ≤ s.cycles

theorem runDone_iff (s : State) : (s.atBoundary && decide (s.target ≤ s.cycles)) = true ↔ RunDone s := by
  simp [State.atBoundary, RunDone, AtBoundary]

theorem runLoop_of_done {s : State} (h : RunDone s) (fuel : Nat) : runLoop fuel s = .returned s := by
  have h := (runDone_iff s).2 h
  cases fuel <;> simp only [runLoop, h, if_true]

theorem runLoop_zero_of_not_done {s : State} (h : ¬ RunDone s) : runLoop 0 s = .unfinished s := by
  rw [runLoop, if_neg (mt (runDone_iff s).1 h)]

theorem runLoop_succ_of_next {s s' : State} (h : ¬ RunDone s) (hs : step s = .next s') (fuel : Nat) :
    runLoop (fuel + 1) s = runLoop fuel s' := by
  rw [runLoop, if_neg (mt (runDone_iff s).1 h), hs]

/-- A loop that returns, but not at once, returns from the next state. -/
theorem exists_next_of_runLoop_returned {fuel : Nat} {s t : State} (hd : ¬ RunDone s)
    (h : runLoop (fuel + 1) s = .returned t) : ∃ s', step s = .next s' ∧ runLoop fuel s' = .returned t := by
  rw [runLoop, if_neg (mt (runDone_iff s).1 hd)] at h
  cases hs : step s with
  | next s' => rw [hs] at h; exact ⟨s', rfl, h⟩
  | fault f => rw [hs] at h; cases h
  | refused r => rw [hs] at h; cases h

/-- Where the loop returns its exit test holds, and the target is the one it began with. -/
theorem runLoop_returned {fuel : Nat} {s t : State} (h : runLoop fuel s = .returned t) :
    RunDone t ∧ t.target = s.target := by
  induction fuel generalizing s with
  | zero =>
    by_cases hd : RunDone s
    · cases (runLoop_of_done hd 0).symm.trans h
      exact ⟨hd, rfl⟩
    · cases (runLoop_zero_of_not_done hd).symm.trans h
  | succ fuel ih =>
    by_cases hd : RunDone s
    · cases (runLoop_of_done hd _).symm.trans h
      exact ⟨hd, rfl⟩
    · obtain ⟨s', hs, h⟩ := exists_next_of_runLoop_returned hd h
      obtain ⟨hdone, ht⟩ := ih h
      exact ⟨hdone, ht.trans (step_target hs)⟩

/-- A halted core with no check due is at the larger of `cycles` and the target after at most one iteration (R93). -/
theorem runLoop_of_halt {s : State} (hp : s.pfx = .halt) (hc : ¬ CheckDue s) (fuel : Nat) :
    runLoop (fuel + 1) s = .returned s.haltSpin := by
  by_cases hd : RunDone s
  · have hs : s.haltSpin = s := by rw [State.haltSpin, max_eq_left hd.2]
    rw [runLoop_of_done hd, hs]
  · have hspun : RunDone s.haltSpin := ⟨.inr hp, le_max_right ..⟩
    rw [runLoop_succ_of_next hd (step_of_halt hp hc)]
    exact runLoop_of_done hspun fuel

/-- Settles O21: `run` is its loop from the state with the target recorded. -/
theorem runReturns : Obligations.RunReturns := by
  intro fuel target s
  refine ⟨fun t h => ?_, fun hb hle => ?_, fun hp hc => ?_⟩
  · obtain ⟨⟨hb, hle⟩, ht⟩ := runLoop_returned h
    exact ⟨hb, ht.symm.trans_le hle⟩
  · exact runLoop_of_done (s := { s with target := target }) ⟨hb, hle⟩ fuel
  · exact runLoop_of_halt (s := { s with target := target }) hp hc fuel

/-! ## Conditions (R110) -/

/-- Under the mask of one bit, `F` shows that bit or nothing. -/
theorem condMask_twoPow (f : Byte) {k : Nat} (hk : k < 8) :
    State.condMask f (.twoPow 8 k) (.twoPow 8 k) = f.getLsbD k ∧ State.condMask f (.twoPow 8 k) 0#8 = !f.getLsbD k := by
  have hne : BitVec.twoPow 8 k ≠ 0#8 := fun h => by simpa [hk] using congrArg (·.getLsbD k) h
  rw [State.condMask, State.condMask, BitVec.and_twoPow]
  cases f.getLsbD k <;> simp [hne, hne.symm]

/-- Settles O52: the masks and matches of the condition table are those of `condMask_twoPow` at bits 6, 0, 2 and 7. -/
theorem conditions : Obligations.Conditions := by
  intro s
  obtain ⟨hz, hnz⟩ := condMask_twoPow s.getF (k := 6) (by decide)
  obtain ⟨hc, hnc⟩ := condMask_twoPow s.getF (k := 0) (by decide)
  obtain ⟨hpe, hpo⟩ := condMask_twoPow s.getF (k := 2) (by decide)
  obtain ⟨hm, hp⟩ := condMask_twoPow s.getF (k := 7) (by decide)
  exact ⟨hz, hc, hpe, hm, hnz.trans (congrArg not hz.symm), hnc.trans (congrArg not hc.symm),
    hpo.trans (congrArg not hpe.symm), hp.trans (congrArg not hm.symm)⟩

end Sys2Proof.Machine
end

section
/-! PROOFS. The rows of one instruction family as the claims about them are made: which bytes an instruction is, table by table,
and that it runs (spec 30_encoding.md R60 to R63, R70 to R72). -/

namespace Sys2Proof.Machine

/-! ## The bytes of a row -/

/-- The opcode byte as a number whose part from the operand, field `y`, stands last. -/
theorem opc_eq_op8 (x y z : Nat) : opc x y z = op8 (64 * x + z + 8 * y) :=
  congrArg (BitVec.ofNat 8) (Nat.add_right_comm ..)

/-- The same where the operand is field `p`. -/
theorem opcPQ_eq_op8 (x p q z : Nat) : opcPQ x p q z = op8 (64 * x + 8 * q + z + 16 * p) :=
  congrArg (BitVec.ofNat 8) (by omega)

/-- An opcode byte before an operand word, low byte first (R63). -/
theorem entry_of_word {op op' : Byte} (hop : op = op') (h l : Byte) : [op, lo (h ++ l), hi (h ++ l)] = [op', l, h] := by
  rw [hop, show lo (h ++ l) = l from lo_join h l, show hi (h ++ l) = h from hi_join h l]

theorem encode_of_table_ed {i : Instr} (h : i.table = .ed) : encode i = 0xED#8 :: encodeEntry i := by rw [encode, h]; rfl

theorem encode_of_table_xy {i : Instr} {ii : Idx} (h : i.table = ii.table) : encode i = xyByte ii :: encodeEntry i := by
  rw [encode, h]; cases ii <;> rfl

/-! ## An instruction of a table runs -/

namespace Runs

variable {i : Instr} {bs : List Byte} {s t : State}

theorem np (ht : i.table = .np) (he : encodeEntry i = bs) (hx : exec i s = .next t) : Runs i bs s t :=
  ⟨(encode_of_table_np ht).trans he, hx⟩

theorem ed (ht : i.table = .ed) (he : encodeEntry i = bs) (hx : exec i s = .next t) : Runs i (0xED#8 :: bs) s t :=
  ⟨(encode_of_table_ed ht).trans (congrArg _ he), hx⟩

theorem xy {ii : Idx} (ht : i.table = ii.table) (he : encodeEntry i = bs) (hx : exec i s = .next t) :
    Runs i (xyByte ii :: bs) s t :=
  ⟨(encode_of_table_xy ht).trans (congrArg _ he), hx⟩

end Runs

end Sys2Proof.Machine
end

section
/-! PROOFS. Loads, stack and exchanges (spec 41_load_exchange.md): the bytes of each row by the lemmas above, its effect by the
lemma on the update that its meaning is (Laws/Frames.lean). -/

namespace Sys2Proof.Machine

open State

/-! ## 8-bit loads (R120 to R133) -/

/-- Settles O24: each form is one write of a register (`setR_spec`). -/
theorem loadRegisterForms : Obligations.LoadRegisterForms := fun s =>
  ⟨fun r r' => ⟨_, .np rfl rfl rfl, setR_spec s 4 r (s.getR r')⟩,
    fun r n => ⟨_, .np rfl (congrArg (· :: [n]) (opc_eq_op8 0 r.code 6)) rfl, setR_spec s 7 r n⟩,
    fun r => ⟨_, .np rfl (congrArg (· :: []) (opc_eq_op8 1 r.code 6)) rfl, setR_spec s 7 r s.atHl⟩,
    ⟨_, .np rfl rfl rfl, setR_spec s 7 .a (s.read8 s.bc)⟩,
    ⟨_, .np rfl rfl rfl, setR_spec s 7 .a (s.read8 s.de)⟩,
    fun l h => ⟨_, .np rfl (entry_of_word rfl h l) rfl, setR_spec s 13 .a (s.read8 (h ++ l))⟩,
    fun r ii d => ⟨_, .xy rfl (congrArg (· :: [d]) (opc_eq_op8 1 r.code 6)) rfl, setR_spec s (19 - 4) r (s.atIi ii d)⟩⟩

/-- Settles O25: each form is one store (`write8_spec`). -/
theorem storeByteForms : Obligations.StoreByteForms := fun s =>
  ⟨fun r => ⟨_, .np rfl rfl rfl, write8_spec s 7 s.hl (s.getR r)⟩,
    fun n => ⟨_, .np rfl rfl rfl, write8_spec s 10 s.hl n⟩,
    ⟨_, .np rfl rfl rfl, write8_spec s 7 s.bc s.getA⟩,
    ⟨_, .np rfl rfl rfl, write8_spec s 7 s.de s.getA⟩,
    fun l h => ⟨_, .np rfl (entry_of_word rfl h l) rfl, write8_spec s 13 (h ++ l) s.getA⟩,
    fun ii d r => ⟨_, .xy rfl rfl rfl, write8_spec s (19 - 4) (s.ea ii d) (s.getR r)⟩,
    fun ii d n => ⟨_, .xy rfl rfl rfl, write8_spec s (19 - 4) (s.ea ii d) n⟩⟩

/-! ## Halves of index registers (R134, R135) -/

/-- No operand name is `F`. -/
theorem getF_setP (s : State) (ii : Idx) (p : RegP) (v : Byte) : (s.setP ii p v).getF = s.getF := by
  cases p <;> cases ii <;> simp [setP, setIi, getF]

/-- No operand name is a half of the other index register. -/
theorem getIi_otherIdx_setP (s : State) (ii : Idx) (p : RegP) (v : Byte) :
    (s.setP ii p v).getIi (otherIdx ii) = s.getIi (otherIdx ii) := by
  cases p <;> cases ii <;> rfl

/-- Writing an operand of tables `DD`/`FD` and ticking: only that operand changed. -/
theorem setP_spec (s : State) (n : Nat) (ii : Idx) (p : RegP) (v : Byte) :
    let t := (s.setP ii p v).tick n
    t = { s with af := t.af, bc := t.bc, de := t.de, ix := t.ix, iy := t.iy, cycles := s.cycles + n }
      ∧ SameMem s t ∧ t.getF = s.getF ∧ t.getIi (otherIdx ii) = s.getIi (otherIdx ii)
      ∧ t.getP ii p = v ∧ ∀ x, x ≠ p → t.getP ii x = s.getP ii x := by
  refine ⟨by cases p <;> cases ii <;> rfl, .of_mem (setP_mem s ii p v), getF_setP s ii p v, ?_, ?_, fun x hx => ?_⟩
  · rw [getIi_tick, getIi_otherIdx_setP]
  · rw [getP_tick, getP_setP_same]
  · rw [getP_tick, getP_setP_ne s ii hx]

/-- Settles O26: `LD p,p'` writes one operand (`setP_spec`), the immediate forms load the index register with one half replaced
(`setIi_spec`). -/
theorem halfIndexLoads : Obligations.HalfIndexLoads := fun s ii =>
  ⟨fun p p' _ => ⟨_, .xy rfl rfl rfl, setP_spec s (8 - 4) ii p (s.getP ii p')⟩,
    fun n => ⟨_, .xy rfl rfl rfl, setIi_spec s (11 - 4) ii (setHi (s.getIi ii) n)⟩,
    fun n => ⟨_, .xy rfl rfl rfl, setIi_spec s (11 - 4) ii (setLo (s.getIi ii) n)⟩⟩

/-! ## `I` and `R` (R136 to R139) -/

/-- Loading `A` from a control register. -/
theorem ldAFrom_spec (s : State) (n : Nat) (v : Byte) :
    AfOnly n s ((ldAFrom v s).tick n) ∧ ((ldAFrom v s).tick n).getA = v
      ∧ FlagsOf v ((ldAFrom v s).tick n).getF false s.iff2 false (s.getF.getLsbD 0) := by
  refine ⟨⟨rfl, fun _ => rfl⟩, getA_join .., ?_⟩
  rw [ldAFrom, getF_join]
  exact packF_bits ..

/-- Only `LD R,A` writes `R` (R139). -/
theorem exec_r_of_ne_ldRA {i : Instr} {s t : State} (h : exec i s = .next t) (hi : effective i ≠ .ldRA) : t.r = s.r := by
  obtain ⟨hx, hn, -⟩ := exec_effective h
  exact (exec_controlEffect hn hx).refresh.trans (if_neg hi)

/-- Settles O27: an instruction other than `LD R,A` leaves `R` (`exec_r_of_ne_ldRA`), so its bit 7 too; the loads of `A` are
`ldAFrom_spec`. -/
theorem systemRegisterLoads : Obligations.SystemRegisterLoads := by
  refine ⟨fun i s t h hne => ?_, fun s => ⟨?_, ?_, ?_, ?_⟩⟩
  · by_contra hi
    exact hne (by rw [exec_r_of_ne_ldRA h hi])
  · exact ⟨_, .ed rfl rfl rfl, ldAFrom_spec s (9 - 4) s.i⟩
  · exact ⟨_, .ed rfl rfl rfl, ldAFrom_spec s (9 - 4) s.r⟩
  · exact .ed rfl rfl rfl
  · exact .ed rfl rfl rfl

/-! ## 16-bit loads (R140 to R149) -/

/-- Settles O28: each form is one write of a pair (`setSs_spec`) or of an index register (`setIi_spec`). -/
theorem loadPairForms : Obligations.LoadPairForms := fun s =>
  ⟨fun ss l h => ⟨_, .np rfl (entry_of_word (opcPQ_eq_op8 0 ss.code 0 1) h l) rfl, setSs_spec s 10 ss (h ++ l)⟩,
    fun ii l h => ⟨_, .xy rfl (entry_of_word rfl h l) rfl, setIi_spec s (14 - 4) ii (h ++ l)⟩,
    fun l h => ⟨_, .np rfl (entry_of_word rfl h l) rfl, setSs_spec s 16 .hl (s.read16 (h ++ l))⟩,
    fun ss l h => ⟨_, .ed rfl (entry_of_word (opcPQ_eq_op8 1 ss.code 1 3) h l) rfl,
      setSs_spec s (20 - 4) ss (s.read16 (h ++ l))⟩,
    fun ii l h => ⟨_, .xy rfl (entry_of_word rfl h l) rfl, setIi_spec s (20 - 4) ii (s.read16 (h ++ l))⟩,
    ⟨_, .np rfl rfl rfl, setSs_spec s 6 .sp s.hl⟩,
    fun ii => ⟨_, .xy rfl rfl rfl, setSs_spec s (10 - 4) .sp (s.getIi ii)⟩⟩

/-- Settles O29: each form is one store of a word (`write16_spec`). -/
theorem storeWordForms : Obligations.StoreWordForms := fun s l h =>
  ⟨⟨_, .np rfl (entry_of_word rfl h l) rfl, write16_spec s 16 (h ++ l) s.hl⟩,
    fun ss => ⟨_, .ed rfl (entry_of_word (opcPQ_eq_op8 1 ss.code 0 3) h l) rfl,
      write16_spec s (20 - 4) (h ++ l) (s.getSs ss)⟩,
    fun ii => ⟨_, .xy rfl (entry_of_word rfl h l) rfl, write16_spec s (20 - 4) (h ++ l) (s.getIi ii)⟩⟩

/-! ## Stack (R150 to R153) -/

/-- A push and a tick: the word stands below the old `SP`, and only `SP` and memory changed. -/
theorem push16_spec (s : State) (n : Nat) (w : Word) :
    let t := (s.push16 w).tick n
    t = { s with sp := s.sp - 2#16, mem := t.mem, cycles := s.cycles + n } ∧ Put16 (s.sp - 2#16) w s t :=
  ⟨congrArg (State.tick · n) (push16_frame s w), (push16_put s w).of_mem rfl⟩

/-- Settles O30: a push is `push16_spec`, a pop writes the word at `SP` (`pop16_setQq_spec`, `pop16_setIi_spec`). -/
theorem stackForms : Obligations.StackForms := fun s =>
  ⟨fun qq => ⟨_, .np rfl (congrArg (· :: []) (opcPQ_eq_op8 3 qq.code 0 5)) rfl, push16_spec s 11 (s.getQq qq)⟩,
    fun ii => ⟨_, .xy rfl rfl rfl, push16_spec s (15 - 4) (s.getIi ii)⟩,
    fun qq => ⟨_, .np rfl (congrArg (· :: []) (opcPQ_eq_op8 3 qq.code 0 1)) rfl, pop16_setQq_spec s 10 qq s.top16⟩,
    fun ii => ⟨_, .xy rfl rfl rfl, pop16_setIi_spec s (14 - 4) ii s.top16⟩⟩

/-! ## Exchanges (R160, R165 to R168) -/

/-- Settles O31: the register exchanges are the states written out; with the word at `SP`, `replaceTop_put` and
`replaceTop_setIi_spec` say what memory and the register hold. -/
theorem exchanges : Obligations.Exchanges := fun s =>
  ⟨.np rfl rfl rfl, .np rfl rfl rfl, .np rfl rfl rfl,
    ⟨_, .np rfl rfl rfl, rfl, (replaceTop_put s s.hl).of_mem rfl⟩,
    fun ii => ⟨_, .xy rfl rfl rfl, replaceTop_setIi_spec s (23 - 4) ii (s.getIi ii) s.top16⟩⟩

end Sys2Proof.Machine
end

section
/-! PROOFS. 8-bit arithmetic and logic (spec 42_arith8.md): the bit formulas of the cores, and the rows of the accumulator
operations, of `INC` and `DEC`, and of the operations on `A` and `F` alone. What each shared operation does is said in
Laws/Alu.lean; here it is tied to the rows that use it. -/

namespace Sys2Proof.Machine

open State

/-! ## The cores as bit formulas (R181) -/

theorem getLsbD_seven (x : Byte) : x.getLsbD 7 = decide (128 ≤ x.toNat) :=
  (BitVec.msb_eq_getLsbD_last x).symm.trans (BitVec.msb_eq_decide x)

/-- Half carry is the carry into bit 4, which is bit 4 of the sum without the operands' own bits. -/
theorem add8_h_eq_bit (a b : Byte) (c : Bool) : (add8 a b c).h = (a ^^^ b ^^^ (add8 a b c).r).getLsbD 4 := by
  have hh : (add8 a b c).h = BitVec.carry 4 a b c := rfl
  have hc : BitVec.ofNat 8 c.toNat = (BitVec.ofBool c).setWidth 8 := by cases c <;> rfl
  rw [hh, add8_r, hc, BitVec.getLsbD_xor, BitVec.getLsbD_xor, BitVec.getLsbD_add_add_bool (by decide)]
  simp only [← Bool.xor_assoc, Bool.xor_self, Bool.false_xor]

/-- Overflow: both operands have one sign and the result has the other. -/
theorem add8_v_eq_bit (a b : Byte) (c : Bool) :
    (add8 a b c).v = ((a ^^^ (add8 a b c).r) &&& (b ^^^ (add8 a b c).r)).getLsbD 7 := by
  have hv : (add8 a b c).v = decide (a.toInt + b.toInt + c.toNat < -128 ∨ 127 < a.toInt + b.toInt + c.toNat) := rfl
  have hc := c.toNat_le
  have ha := a.isLt
  have hb := b.isLt
  rw [hv, BitVec.getLsbD_and, BitVec.getLsbD_xor, BitVec.getLsbD_xor, getLsbD_seven, getLsbD_seven, getLsbD_seven,
    add8_toNat, byte_toInt, byte_toInt, Bool.eq_iff_iff]
  simp only [Bool.and_eq_true, bne_iff_ne, ne_eq, decide_eq_decide, decide_eq_true_eq]
  split <;> split <;> omega

/-- A subtraction adds the complement with the carry complemented; its half carry is then the complement of the sum's. -/
theorem sub8_eq_add8_not (a b : Byte) (c : Bool) :
    (sub8 a b c).r = (add8 a (~~~b) (!c)).r ∧ (sub8 a b c).h = !(add8 a (~~~b) (!c)).h
      ∧ (sub8 a b c).v = (add8 a (~~~b) (!c)).v := by
  have hb := b.isLt
  have hc : (!c).toNat = 1 - c.toNat := by cases c <;> rfl
  have hc1 := c.toNat_le
  have hn : (~~~b).toNat = 255 - b.toNat := by simp [BitVec.toNat_not]
  have hi : (~~~b).toInt = -b.toInt - 1 := by rw [byte_toInt, byte_toInt, hn]; split <;> split <;> omega
  refine ⟨?_, ?_, ?_⟩
  · apply BitVec.eq_of_toNat_eq
    rw [sub8_toNat, add8_toNat, hn, hc]
    omega
  · simp only [sub8, add8, hn, hc, ← decide_not, decide_eq_decide]
    omega
  · simp only [sub8, add8, hi, hc, decide_eq_decide]
    omega

/-- Settles O32: the formulas of a sum are `add8_h_eq_bit` and `add8_v_eq_bit`; those of a difference are the sum's with the
second operand complemented (`sub8_eq_add8_not`). -/
theorem coreBitFormulas : Obligations.CoreBitFormulas := by
  refine fun a b c => ⟨⟨add8_r a b c, add8_h_eq_bit a b c, add8_v_eq_bit a b c, rfl, beq_iff_eq⟩, ?_⟩
  obtain ⟨hr, hh, hv⟩ := sub8_eq_add8_not a b c
  refine ⟨sub8_r a b c, ?_, ?_, rfl, beq_iff_eq⟩
  · rw [hh, hr, add8_h_eq_bit]
    simp
  · rw [hv, hr, add8_v_eq_bit]
    simp only [BitVec.getLsbD_and, BitVec.getLsbD_xor, BitVec.getLsbD_not]
    generalize a.getLsbD 7 = x, b.getLsbD 7 = z, (add8 a (~~~b) (!c)).r.getLsbD 7 = w
    cases x <;> cases z <;> cases w <;> rfl

/-! ## The accumulator operations in all forms (R180) -/

/-- The operation of a row of table `alu` (R62) on the operand's value. -/
def aluOp : Nat → Byte → State → State
  | 0 => aluAdd
  | 1 => aluAdc
  | 2 => aluSub
  | 3 => aluSbc
  | 4 => aluAnd
  | 5 => aluXor
  | 6 => aluOr
  | _ => aluCp

section

variable {y : Nat} (hy : y < 8) (s : State)

include hy

theorem aluReg_runs (r : Reg8) :
    Runs (aluReg y r) [op8 (0x80 + 8 * y + r.code)] s ((aluOp y (s.getR r) s).tick 4) := by
  interval_cases y <;> exact .np rfl rfl rfl

theorem aluMem_runs : Runs (aluMem y) [op8 (0x86 + 8 * y)] s ((aluOp y s.atHl s).tick 7) := by
  interval_cases y <;> exact .np rfl rfl rfl

theorem aluN_runs (n : Byte) : Runs (aluN y n) [op8 (0xC6 + 8 * y), n] s ((aluOp y n s).tick 7) := by
  interval_cases y <;> exact .np rfl rfl rfl

theorem aluIdx_runs (ii : Idx) (d : Byte) :
    Runs (aluIdx y ii d) [xyByte ii, op8 (0x86 + 8 * y), d] s ((aluOp y (s.atIi ii d) s).tick (19 - 4)) := by
  interval_cases y <;> exact .xy rfl rfl rfl

theorem aluIih_runs (ii : Idx) :
    Runs (aluIih y ii) [xyByte ii, op8 (0x84 + 8 * y)] s ((aluOp y (s.getP ii .iih) s).tick (8 - 4)) := by
  interval_cases y <;> exact .xy rfl rfl rfl

theorem aluIil_runs (ii : Idx) :
    Runs (aluIil y ii) [xyByte ii, op8 (0x85 + 8 * y)] s ((aluOp y (s.getP ii .iil) s).tick (8 - 4)) := by
  interval_cases y <;> exact .xy rfl rfl rfl

end

/-- What the operation of a row of table `alu` does to every operand value, all six forms of the row do to theirs. -/
theorem aluForms {y : Nat} (hy : y < 8) {effect : Nat → Byte → State → State → Prop}
    (h : ∀ n v s, effect n v s ((aluOp y v s).tick n)) :
    AluForms y (aluReg y) (aluMem y) (aluN y) (aluIdx y) (aluIih y) (aluIil y) effect := fun s =>
  ⟨fun r => ⟨_, aluReg_runs hy s r, h 4 _ s⟩,
    ⟨_, aluMem_runs hy s, h 7 _ s⟩,
    fun n => ⟨_, aluN_runs hy s n, h 7 n s⟩,
    fun ii d => ⟨_, aluIdx_runs hy s ii d, h (19 - 4) _ s⟩,
    fun ii => ⟨_, aluIih_runs hy s ii, h (8 - 4) _ s⟩,
    fun ii => ⟨_, aluIil_runs hy s ii, h (8 - 4) _ s⟩⟩

/-- Settles O33: all forms of rows 0 and 1 of table `alu` (`aluForms`). -/
theorem addAndAdcForms : Obligations.AddAndAdcForms :=
  ⟨aluForms (y := 0) (by decide) aluAdd_spec, aluForms (y := 1) (by decide) aluAdc_spec⟩

/-- Settles O34: all forms of rows 2 and 3 (`aluForms`). -/
theorem subAndSbcForms : Obligations.SubAndSbcForms :=
  ⟨aluForms (y := 2) (by decide) aluSub_spec, aluForms (y := 3) (by decide) aluSbc_spec⟩

/-- Settles O35: all forms of rows 4, 5 and 6 (`aluForms`). -/
theorem logicForms : Obligations.LogicForms :=
  ⟨aluForms (y := 4) (by decide) aluAnd_spec, aluForms (y := 5) (by decide) aluXor_spec,
    aluForms (y := 6) (by decide) aluOr_spec⟩

/-- Settles O36: all forms of row 7 (`aluForms`). -/
theorem compareForms : Obligations.CompareForms := aluForms (y := 7) (by decide) aluCp_spec

/-! ## `INC` and `DEC` in all forms (R190 to R192) -/

/-- The opcode byte of a row with `x = 0`. -/
theorem opc_zero_eq_op8 (y z : Nat) : opc 0 y z = op8 (8 * y + z) :=
  congrArg (BitVec.ofNat 8) (by omega)

theorem incFlags_of_getF {v : Byte} {s t : State} (h : t.getF = incFlags v (v + 1#8) s.getF) : IncFlags v s t := by
  rw [IncFlags, h]; exact incFlags_spec v s.getF

theorem decFlags_of_getF {v : Byte} {s t : State} (h : t.getF = decFlags v (v - 1#8) s.getF) : DecFlags v s t := by
  rw [DecFlags, h]; exact decFlags_spec v s.getF

/-- Settles O37: each form writes the flags and its operand, by the lemma on that update; the flags are `incFlags_of_getF` and
`decFlags_of_getF`. -/
theorem incAndDecForms : Obligations.IncAndDecForms :=
  ⟨fun s =>
      ⟨fun r => ⟨_, .np rfl (congrArg (· :: []) (opc_zero_eq_op8 r.code 4)) rfl,
          (setF_setR_spec s 4 _ r _).imp_right (.imp_right incFlags_of_getF)⟩,
        ⟨_, .np rfl rfl rfl, (write8_setF_spec s 11 s.hl _ _).imp_right (.imp_right (.imp_right incFlags_of_getF))⟩,
        fun ii d => ⟨_, .xy rfl rfl rfl,
          (write8_setF_spec s (23 - 4) (s.ea ii d) _ _).imp_right (.imp_right (.imp_right incFlags_of_getF))⟩,
        fun ii => ⟨_, .xy rfl rfl rfl,
          (setF_setP_spec s (8 - 4) ii _ .iih _ rfl).imp_right (.imp_right (.imp_right incFlags_of_getF))⟩,
        fun ii => ⟨_, .xy rfl rfl rfl,
          (setF_setP_spec s (8 - 4) ii _ .iil _ rfl).imp_right (.imp_right (.imp_right incFlags_of_getF))⟩⟩,
    fun s =>
      ⟨fun r => ⟨_, .np rfl (congrArg (· :: []) (opc_zero_eq_op8 r.code 5)) rfl,
          (setF_setR_spec s 4 _ r _).imp_right (.imp_right decFlags_of_getF)⟩,
        ⟨_, .np rfl rfl rfl, (write8_setF_spec s 11 s.hl _ _).imp_right (.imp_right (.imp_right decFlags_of_getF))⟩,
        fun ii d => ⟨_, .xy rfl rfl rfl,
          (write8_setF_spec s (23 - 4) (s.ea ii d) _ _).imp_right (.imp_right (.imp_right decFlags_of_getF))⟩,
        fun ii => ⟨_, .xy rfl rfl rfl,
          (setF_setP_spec s (8 - 4) ii _ .iih _ rfl).imp_right (.imp_right (.imp_right decFlags_of_getF))⟩,
        fun ii => ⟨_, .xy rfl rfl rfl,
          (setF_setP_spec s (8 - 4) ii _ .iil _ rfl).imp_right (.imp_right (.imp_right decFlags_of_getF))⟩⟩⟩

/-! ## `DAA` (R193) -/

theorem daaCorr_toNat (a f : Byte) :
    (daaCorr a f).toNat = (if daaLow a f then 0x06 else 0) + (if daaHigh a f then 0x60 else 0) := by
  rw [daaCorr]; cases daaLow a f <;> cases daaHigh a f <;> rfl

theorem daaResult_toNat (a f : Byte) : (daaResult a f).toNat =
    (if flagN f then a.toNat + 256 - (daaCorr a f).toNat else a.toNat + (daaCorr a f).toNat) % 256 := by
  have := (daaCorr a f).isLt
  rw [daaResult]
  split
  · rw [BitVec.toNat_sub]; congr 1; omega
  · rw [BitVec.toNat_add]

theorem daaFlags_spec (a f : Byte) :
    FlagsOf (daaResult a f) (daaFlags a f) (daaHalf a f) (evenOnes (daaResult a f)) (flagN f) (daaHigh a f) :=
  (packF_bits ..).congr rfl rfl rfl rfl rfl (parity_eq_evenOnes _) rfl rfl

/-- Settles O38: `A` is `daaResult_toNat` with the correction `daaCorr_toNat`, `F` is `daaFlags_spec`. -/
theorem decimalAdjust : Obligations.DecimalAdjust := by
  refine fun s => ⟨_, .np rfl rfl rfl, ⟨rfl, fun _ => rfl⟩, ?_, ?_⟩
  · rw [getA_join, daaResult_toNat, daaCorr_toNat]; rfl
  · rw [getA_join, getF_join]; exact daaFlags_spec s.getA s.getF

/-! ## `CPL`, `NEG`, `SCF`, `CCF` (R194 to R197) -/

@[simp] theorem getA_setA (s : State) (v : Byte) : (s.setA v).getA = v := hi_setHi s.af v

/-- `NEG` is a subtraction from an `A` that holds 0 (`subCore`). -/
theorem neg_spec (s : State) (n : Nat) :
    let o := sub8 0#8 s.getA false
    let t := State.tick { s with af := join o.r (aluFlags o o.r) } n
    AfOnly n s t ∧ t.getA = 0#8 - s.getA
      ∧ FlagsOf t.getA t.getF (decide (s.getA.toNat % 16 ≠ 0)) (decide (s.getA = 0x80#8)) true
          (decide (s.getA ≠ 0#8)) := by
  have h := subCore n s.getA (s.setA 0#8) false
  rw [SubsFromA, getA_setA] at h
  obtain ⟨-, ha, hf⟩ := h
  refine ⟨⟨rfl, fun _ => rfl⟩, ha.trans (BitVec.sub_zero _), hf.congr rfl rfl rfl ?_ rfl ?_ rfl ?_⟩
  · simp only [decide_eq_decide, BitVec.toNat_ofNat, Bool.toNat_false]
    omega
  · have := s.getA.isLt
    simp only [decide_eq_decide, byte_toInt, ← BitVec.toNat_inj, BitVec.toNat_ofNat, Bool.toNat_false]
    split <;> omega
  · simp only [decide_eq_decide, ← BitVec.toNat_ne_iff_ne, BitVec.toNat_ofNat, Bool.toNat_false]
    omega

theorem cplFlags_bits (a f : Byte) : FlagBits (cplFlags (~~~a) f) (f.getLsbD 7) (f.getLsbD 6) (!a.getLsbD 5) true
    (!a.getLsbD 3) (f.getLsbD 2) true (f.getLsbD 0) :=
  (packF_bits ..).congr rfl rfl (BitVec.getLsbD_not ..) rfl (BitVec.getLsbD_not ..) rfl rfl rfl

theorem scfFlags_bits (a f : Byte) : FlagBits (scfFlags a f) (f.getLsbD 7) (f.getLsbD 6) (a.getLsbD 5) false
    (a.getLsbD 3) (f.getLsbD 2) false true := packF_bits ..

theorem ccfFlags_bits (a f : Byte) : FlagBits (ccfFlags a f) (f.getLsbD 7) (f.getLsbD 6) (a.getLsbD 5) (f.getLsbD 0)
    (a.getLsbD 3) (f.getLsbD 2) false (!f.getLsbD 0) := packF_bits ..

/-- Settles O39: `NEG` is `neg_spec`; the others give `F` the bits of `cplFlags_bits`, `scfFlags_bits`, `ccfFlags_bits`. -/
theorem accumulatorAndFlagOps : Obligations.AccumulatorAndFlagOps := by
  refine fun s => ⟨⟨_, .np rfl rfl rfl, ⟨rfl, fun _ => rfl⟩, getA_join .., ?_⟩,
    fun y => ⟨_, .ed rfl (congrArg (· :: []) (opc_eq_op8 1 y.toNat 4)) rfl, neg_spec s (8 - 4)⟩,
    ⟨_, .np rfl rfl rfl, ⟨rfl, fun _ => rfl⟩, getA_setF s _, ?_⟩,
    ⟨_, .np rfl rfl rfl, ⟨rfl, fun _ => rfl⟩, getA_setF s _, ?_⟩⟩
  · rw [getF_join]; exact cplFlags_bits s.getA s.getF
  · rw [getF_tick, getF_setF]; exact scfFlags_bits s.getA s.getF
  · rw [getF_tick, getF_setF]; exact ccfFlags_bits s.getA s.getF

end Sys2Proof.Machine
end

section
/-! PROOFS. 16-bit arithmetic (spec 43_arith16.md): the flags of the sums and the difference, bit by bit, and the rows of `ADD`,
`ADC`, `SBC`, `INC` and `DEC` on pairs and index registers. -/

namespace Sys2Proof.Machine

open State

/-! ## Flags (R220 to R223) -/

theorem add16_false (a b : Word) : add16 a b false = a + b := (add16_eq a b false).trans (BitVec.add_zero _)

/-- `Y` and `X` are bits 5 and 3 of the high byte, so bits 13 and 11 of the word. -/
theorem yOf_hi (w : Word) : yOf (hi w) = w.getLsbD 13 := getLsbD_hi w (by decide)

theorem xOf_hi (w : Word) : xOf (hi w) = w.getLsbD 11 := getLsbD_hi w (by decide)

/-- Bits known of a flag byte are known of the `F` that holds it. -/
theorem FlagBits.of_getF {t : State} {f : Byte} {s z y h x p n c : Bool} (hf : t.getF = f)
    (k : FlagBits f s z y h x p n c) : FlagBits t.getF s z y h x p n c := hf ▸ k

theorem addPairFlags_bits (a b : Word) (f : Byte) :
    FlagBits (addPairFlags a b f) (f.getLsbD 7) (f.getLsbD 6) ((a + b).getLsbD 13)
      (decide (0x0FFF < a.toNat % 4096 + b.toNat % 4096)) ((a + b).getLsbD 11) (f.getLsbD 2) false
      (decide (0xFFFF < a.toNat + b.toNat)) := by
  rw [← add16_false a b]
  exact (packF_bits ..).congr rfl rfl (yOf_hi _) rfl (xOf_hi _) rfl rfl rfl

theorem adcPairFlags_bits (a b : Word) (c : Bool) :
    let r := add16 a b c
    FlagBits (adcPairFlags a b c) (r.getLsbD 15) (decide (r = 0#16)) (r.getLsbD 13)
      (decide (0x0FFF < a.toNat % 4096 + b.toNat % 4096 + c.toNat)) (r.getLsbD 11)
      (decide (a.toInt + b.toInt + c.toNat < -32768 ∨ 32767 < a.toInt + b.toInt + c.toNat)) false
      (decide (0xFFFF < a.toNat + b.toNat + c.toNat)) :=
  (packF_bits ..).congr rfl rfl (yOf_hi _) rfl (xOf_hi _) rfl rfl rfl

/-- A borrow, which the model reads off the sign of an integer difference, is a comparison of numbers. -/
theorem sbcPairFlags_bits (a b : Word) (c : Bool) :
    let r := sub16 a b c
    FlagBits (sbcPairFlags a b c) (r.getLsbD 15) (decide (r = 0#16)) (r.getLsbD 13)
      (decide (a.toNat % 4096 < b.toNat % 4096 + c.toNat)) (r.getLsbD 11)
      (decide (a.toInt - b.toInt - c.toNat < -32768 ∨ 32767 < a.toInt - b.toInt - c.toNat)) true
      (decide (a.toNat < b.toNat + c.toNat)) := by
  have borrow (x y : Nat) : decide ((x : Int) - y - c.toNat < 0) = decide (x < y + c.toNat) := by
    rw [decide_eq_decide]; omega
  exact (packF_bits ..).congr rfl rfl (yOf_hi _) (borrow ..) (xOf_hi _) rfl rfl (borrow ..)

/-! ## Sums and differences (R220 to R223) -/

/-- Writing `HL`, then the flags, and ticking: `A`, `BC` and `DE` are kept. -/
theorem hl_setF_spec (s : State) (n : Nat) (w : Word) (f : Byte) :
    let t := ({ s with hl := w }.setF f).tick n
    MainOnly n s t ∧ t.getA = s.getA ∧ t.bc = s.bc ∧ t.de = s.de ∧ t.hl = w ∧ t.getF = f :=
  ⟨⟨rfl, fun _ => rfl⟩, getA_setF .., rfl, rfl, rfl, getF_setF ..⟩

/-- Settles O40: `HL` and the flags are written by `hl_setF_spec`, an index register and the flags by `setIi_setF_spec`; the sum
is `add16_false`, the flags are `addPairFlags_bits`. -/
theorem addPairForms : Obligations.AddPairForms := by
  refine fun s => ⟨fun ss => ?_, fun ii pp => ?_⟩
  · obtain ⟨hm, ha, hb, hd, hw, hf⟩ :=
      hl_setF_spec s 11 (add16 s.hl (s.getSs ss) false) (addPairFlags s.hl (s.getSs ss) s.getF)
    exact ⟨_, .np rfl (congrArg (· :: []) (opcPQ_eq_op8 0 ss.code 1 1)) rfl, hm, ha, hb, hd, hw.trans (add16_false ..),
      FlagBits.of_getF hf (addPairFlags_bits ..)⟩
  · obtain ⟨hm, ha, hw, hf⟩ := setIi_setF_spec s (15 - 4) ii (add16 (s.getIi ii) (s.getPp ii pp) false)
      (addPairFlags (s.getIi ii) (s.getPp ii pp) s.getF)
    exact ⟨_, .xy rfl (congrArg (· :: []) (opcPQ_eq_op8 0 pp.code 1 1)) rfl, hm, ha, add16_false .. ▸ hw,
      FlagBits.of_getF hf (addPairFlags_bits ..)⟩

/-- Settles O41: both write `HL` and the flags (`hl_setF_spec`); the results are `add16_eq` and `sub16_eq`, the flags
`adcPairFlags_bits` and `sbcPairFlags_bits`. -/
theorem carryPairForms : Obligations.CarryPairForms := by
  refine fun s ss => ⟨?_, ?_⟩
  · obtain ⟨hm, ha, hb, hd, hw, hf⟩ := hl_setF_spec s (15 - 4) (add16 s.hl (s.getSs ss) (flagC s.getF))
      (adcPairFlags s.hl (s.getSs ss) (flagC s.getF))
    exact ⟨_, .ed rfl (congrArg (· :: []) (opcPQ_eq_op8 1 ss.code 1 2)) rfl, hm, ha, hb, hd, hw.trans (add16_eq ..),
      FlagBits.of_getF hf (adcPairFlags_bits ..)⟩
  · obtain ⟨hm, ha, hb, hd, hw, hf⟩ := hl_setF_spec s (15 - 4) (sub16 s.hl (s.getSs ss) (flagC s.getF))
      (sbcPairFlags s.hl (s.getSs ss) (flagC s.getF))
    exact ⟨_, .ed rfl (congrArg (· :: []) (opcPQ_eq_op8 1 ss.code 0 2)) rfl, hm, ha, hb, hd, hw.trans (sub16_eq ..),
      FlagBits.of_getF hf (sbcPairFlags_bits ..)⟩

/-! ## `INC` and `DEC` of a word (R224 to R227) -/

/-- Settles O42: each form is one write of a pair (`setSs_spec`) or of an index register (`setIi_spec`). -/
theorem incAndDecPairs : Obligations.IncAndDecPairs := fun s =>
  ⟨fun ss => ⟨_, .np rfl (congrArg (· :: []) (opcPQ_eq_op8 0 ss.code 0 3)) rfl, setSs_spec s 6 ss (s.getSs ss + 1#16)⟩,
    fun ii => ⟨_, .xy rfl rfl rfl, setIi_spec s (10 - 4) ii (s.getIi ii + 1#16)⟩,
    fun ss => ⟨_, .np rfl (congrArg (· :: []) (opcPQ_eq_op8 0 ss.code 1 3)) rfl, setSs_spec s 6 ss (s.getSs ss - 1#16)⟩,
    fun ii => ⟨_, .xy rfl rfl rfl, setIi_spec s (10 - 4) ii (s.getIi ii - 1#16)⟩⟩

end Sys2Proof.Machine
end

section
/-! PROOFS. Rotates and shifts (spec 44_rotate_shift.md): the rows of tables `CB`, `DDCB` and `FDCB`, and what the shared updates
`rotA`, `rotInReg`, `rotAtHl`, `rotAtIi`, `rotAtIiReg` and `digitRotate` do. The results themselves are the bit strings of
Laws/Flags.lean. -/

namespace Sys2Proof.Machine

open State

/-! ## The bytes of a row of tables `CB`, `DDCB`, `FDCB` (30_encoding.md R70, R71, R74) -/

theorem encode_of_table_cb {i : Instr} (h : i.table = .cb) : encode i = 0xCB#8 :: encodeEntry i := by rw [encode, h]; rfl

theorem encode_of_table_xyCb {i : Instr} {ii : Idx} (h : i.table = ii.tableCb) :
    encode i = xyByte ii :: 0xCB#8 :: encodeEntry i := by
  rw [encode, h]; cases ii <;> rfl

namespace Runs

variable {i : Instr} {bs : List Byte} {s t : State}

theorem cb (ht : i.table = .cb) (he : encodeEntry i = bs) (hx : exec i s = .next t) : Runs i (0xCB#8 :: bs) s t :=
  ⟨(encode_of_table_cb ht).trans (congrArg _ he), hx⟩

theorem xyCb {ii : Idx} (ht : i.table = ii.tableCb) (he : encodeEntry i = bs) (hx : exec i s = .next t) :
    Runs i (xyByte ii :: 0xCB#8 :: bs) s t :=
  ⟨(encode_of_table_xyCb ht).trans (congrArg (xyByte ii :: 0xCB#8 :: ·) he), hx⟩

end Runs

/-! ## The updates, from what the operation answers (R240 to R245) -/

theorem rotAFlags_bits (a f : Byte) (c : Bool) : FlagBits (rotAFlags a f c) (f.getLsbD 7) (f.getLsbD 6) (a.getLsbD 5) false
    (a.getLsbD 3) (f.getLsbD 2) false c := packF_bits ..

theorem rotFlags_of_getF {v : Byte} {c : Bool} {t : State} (h : t.getF = rotFlags v c) : RotFlags v c t := by
  rw [RotFlags, h]; exact rotFlags_spec v c

section

variable {f : Byte → Bool → Byte × Bool} {s : State} {v : Byte} {b : Bool}

theorem rotA_spec (h : f s.getA (flagC s.getF) = (v, b)) : RotatesA v b s ((rotA f s).tick 4) := by
  simp only [rotA, h]
  exact ⟨⟨rfl, fun _ => rfl⟩, getA_join .., .of_getF (getF_join ..) (rotAFlags_bits v s.getF b)⟩

theorem rotInReg_spec {r : Reg8} (h : f (s.getR r) (flagC s.getF) = (v, b)) :
    let t := rotInReg f r s
    MainOnly (8 - 4) s t ∧ RegSet r v s t ∧ RotFlags v b t := by
  simp only [rotInReg, h]
  exact (setF_setR_spec s (8 - 4) _ r v).imp_right (.imp_right rotFlags_of_getF)

theorem rotAtHl_spec (h : f s.atHl (flagC s.getF) = (v, b)) :
    let t := rotAtHl f s
    AfMemOnly (15 - 4) s t ∧ t.getA = s.getA ∧ Put8 s.hl v s t ∧ RotFlags v b t := by
  simp only [rotAtHl, h]
  exact (write8_setF_spec s (15 - 4) s.hl v _).imp_right (.imp_right (.imp_right rotFlags_of_getF))

theorem rotAtIi_spec {ii : Idx} {d : Byte} (h : f (s.atIi ii d) (flagC s.getF) = (v, b)) :
    let t := rotAtIi f ii d s
    AfMemOnly (23 - 4) s t ∧ t.getA = s.getA ∧ Put8 (s.ea ii d) v s t ∧ RotFlags v b t := by
  simp only [rotAtIi, h]
  exact (write8_setF_spec s (23 - 4) (s.ea ii d) v _).imp_right (.imp_right (.imp_right rotFlags_of_getF))

theorem rotAtIiReg_spec {ii : Idx} {d : Byte} {r : Reg8} (h : f (s.atIi ii d) (flagC s.getF) = (v, b)) :
    let t := rotAtIiReg f ii d r s
    MainMemOnly (23 - 4) s t ∧ RegSet r v s t ∧ Put8 (s.ea ii d) v s t ∧ RotFlags v b t := by
  simp only [rotAtIiReg, h]
  exact (write8_setF_setR_spec s (23 - 4) (s.ea ii d) v _ r v).imp_right (.imp_right (.imp_right rotFlags_of_getF))

end

/-! ## The accumulator rotates (R240 to R243) -/

/-- Settles O43: each row is `rotA` (`rotA_spec`) of an operation whose answer is the bit string claimed. -/
theorem accumulatorRotates : Obligations.AccumulatorRotates := fun _ =>
  ⟨⟨_, .np rfl rfl rfl, rotA_spec (rotRlc_eq ..)⟩,
    ⟨_, .np rfl rfl rfl, rotA_spec (rotRrc_eq ..)⟩,
    ⟨_, .np rfl rfl rfl, rotA_spec (rotRl_eq ..)⟩,
    ⟨_, .np rfl rfl rfl, rotA_spec (rotRr_eq ..)⟩⟩

/-! ## The eight rotates and shifts in all forms (R244 to R253) -/

/-- The operation of a row of table `rot` (R62), from the operand and the old carry. -/
def rotOp : Nat → Byte → Bool → Byte × Bool
  | 0 => rotRlc
  | 1 => rotRrc
  | 2 => rotRl
  | 3 => rotRr
  | 4 => rotSla
  | 5 => rotSra
  | 6 => rotSll
  | _ => rotSrl

section

variable {y : Nat} (hy : y < 8) (s : State)

include hy

theorem rotReg_runs (r : Reg8) : Runs (rotReg y r) [0xCB#8, op8 (8 * y + r.code)] s (rotInReg (rotOp y) r s) := by
  interval_cases y <;> exact .cb rfl rfl rfl

theorem rotMem_runs : Runs (rotMem y) [0xCB#8, op8 (8 * y + 6)] s (rotAtHl (rotOp y) s) := by
  interval_cases y <;> exact .cb rfl rfl rfl

theorem rotIdx_runs (ii : Idx) (d : Byte) :
    Runs (rotIdx y ii d) [xyByte ii, 0xCB#8, d, op8 (8 * y + 6)] s (rotAtIi (rotOp y) ii d s) := by
  interval_cases y <;> exact .xyCb rfl rfl rfl

theorem rotIdxReg_runs (ii : Idx) (d : Byte) (r : Reg8) :
    Runs (rotIdxReg y ii d r) [xyByte ii, 0xCB#8, d, op8 (8 * y + r.code)] s (rotAtIiReg (rotOp y) ii d r s) := by
  interval_cases y <;> exact .xyCb rfl rfl rfl

end

/-- What the operation of a row of table `rot` answers is what all four forms of the row write. -/
theorem rotForms {y : Nat} (hy : y < 8) {res : Byte → Bool → Byte} {out : Byte → Bool}
    (h : ∀ v c, rotOp y v c = (res v c, out v)) :
    RotForms y (rotReg y) (rotMem y) (rotIdx y) (rotIdxReg y) res out := fun s =>
  ⟨fun r => ⟨_, rotReg_runs hy s r, rotInReg_spec (h ..)⟩,
    ⟨_, rotMem_runs hy s, rotAtHl_spec (h ..)⟩,
    fun ii d => ⟨_, rotIdx_runs hy s ii d, rotAtIi_spec (h ..)⟩,
    fun ii d r => ⟨_, rotIdxReg_runs hy s ii d r, rotAtIiReg_spec (h ..)⟩⟩

/-- Settles O44: all forms of each row of table `rot` (`rotForms`), with the answers of Laws/Flags.lean. -/
theorem rotateAndShiftForms : Obligations.RotateAndShiftForms :=
  ⟨rotForms (y := 0) (by decide) rotRlc_eq, rotForms (y := 1) (by decide) rotRrc_eq,
    rotForms (y := 2) (by decide) rotRl_eq, rotForms (y := 3) (by decide) rotRr_eq,
    rotForms (y := 4) (by decide) rotSla_eq, rotForms (y := 5) (by decide) rotSra_eq,
    rotForms (y := 6) (by decide) rotSll_eq, rotForms (y := 7) (by decide) rotSrl_eq⟩

/-! ## `RLD` and `RRD` (R254, R255) -/

/-- A byte of two digits, as the model puts it together. -/
theorem digits_eq_or (x y : BitVec 4) : x ++ y = x.setWidth 8 <<< 4 ||| y.setWidth 8 := by
  rw [BitVec.append_def, BitVec.shiftLeftZeroExtend_eq, BitVec.setWidth'_eq]

/-! The four places a digit of a byte is moved to. -/

theorem high_digit_kept : ∀ v : Byte, v &&& 0xF0#8 = (v.extractLsb' 4 4).setWidth 8 <<< 4 := by decide
theorem low_digit_kept : ∀ v : Byte, v &&& 0x0F#8 = (v.extractLsb' 0 4).setWidth 8 := by decide
theorem high_digit_to_low : ∀ v : Byte, v >>> 4 = (v.extractLsb' 4 4).setWidth 8 := by decide
theorem low_digit_to_high : ∀ v : Byte, v <<< 4 = (v.extractLsb' 0 4).setWidth 8 <<< 4 := by decide

theorem digitRotate_spec {m m' a a' : Byte} (hm : m = m') (ha : a = a') (s : State) :
    let t := (digitRotate m a s).tickPrefixed 18
    AfMemOnly (18 - 4) s t ∧ t.getA = a' ∧ Put8 s.hl m' s t
      ∧ FlagsOf t.getA t.getF false (evenOnes t.getA) false (s.getF.getLsbD 0) := by
  subst hm ha
  obtain ⟨-, hput⟩ := write8_spec s (18 - 4) s.hl m
  refine ⟨rfl, getA_join .., hput.of_mem rfl, ?_⟩
  simp only [tickPrefixed, digitRotate, getA_join, getF_join]
  exact inFlags_spec a s.getF

/-- Settles O45: both rows are `digitRotate` (`digitRotate_spec`); each of its two bytes is two digits moved. -/
theorem digitRotates : Obligations.DigitRotates := fun s =>
  ⟨⟨_, .ed rfl rfl rfl, digitRotate_spec
      (by rw [digits_eq_or, low_digit_to_high, low_digit_kept]; rfl)
      (by rw [digits_eq_or, high_digit_kept, high_digit_to_low]; rfl) s⟩,
    ⟨_, .ed rfl rfl rfl, digitRotate_spec
      (by rw [digits_eq_or, low_digit_to_high, high_digit_to_low]; rfl)
      (by rw [digits_eq_or, high_digit_kept, low_digit_kept]; rfl) s⟩⟩

end Sys2Proof.Machine
end

section
/-! PROOFS. Bit test, set and reset (spec 45_bit.md): each row is one update of `F`, of a register or of a memory cell; its bytes
are those of a row of tables `CB`, `DDCB`, `FDCB`. Which bits the results have is said in Laws/Flags.lean. -/

namespace Sys2Proof.Machine

open State

/-! ## `BIT` (R270 to R272) -/

/-- A bit test and a tick: the flags tell of the bit, and nothing but `F` changed. -/
theorem bitTest_spec (s : State) (n : Nat) (b : BitVec 3) (v y x : Bool) :
    let t := (s.setF (bitFlags b v y x s.getF)).tick n
    AfOnly n s t ∧ t.getA = s.getA ∧ BitFlags b v y x s t := by
  obtain ⟨hframe, ha, hf⟩ := setF_spec s n (bitFlags b v y x s.getF)
  exact ⟨hframe, ha, .of_getF hf (bitFlags_spec b v y x s.getF)⟩

/-- `BIT b,(II+d)` takes `Y` and `X` from bits 13 and 11 of the address, whatever its field `z` (R272). -/
theorem bitIdx_runs (s : State) (ii : Idx) (d : Byte) (b z : BitVec 3) :
    let ea := s.ea ii d
    Runs (.bitIdx ii d b z) [xyByte ii, 0xCB#8, d, op8 (0x40 + 8 * b.toNat + z.toNat)] s
      ((s.setF (bitFlags b ((s.read8 ea).getLsbD b.toNat) (ea.getLsbD 13) (ea.getLsbD 11) s.getF)).tick (20 - 4)) := by
  intro ea
  rw [← yOf_hi, ← xOf_hi]
  exact .xyCb rfl rfl rfl

/-- Settles O46: each form is one bit test (`bitTest_spec`); the one on `(HL)` runs in the state that has made its draw of `Y` and
`X` (log 6). -/
theorem bitTestForms : Obligations.BitTestForms := by
  refine fun s b => ⟨fun r => ⟨_, .cb rfl rfl rfl, bitTest_spec s (8 - 4) b ..⟩, ?_,
    fun ii d z => ⟨_, bitIdx_runs s ii d b z, bitTest_spec s (20 - 4) b ..⟩⟩
  obtain ⟨⟨hframe, hmem⟩, ha, hf⟩ := bitTest_spec { s with draws := s.draws + 1 } (12 - 4) b (s.atHl.getLsbD b.toNat)
    (Config.bitHlYX s.draws).1 (Config.bitHlYX s.draws).2
  exact ⟨_, _, _, .cb rfl (congrArg (· :: []) (opc_eq_op8 1 b.toNat 6)) rfl, hframe, hmem, ha, hf⟩

/-! ## `SET` and `RES` (R273 to R280) -/

section

variable {x : Nat} {on : Bool} {f : BitVec 3 → Byte → Byte} {reg : BitVec 3 → Reg8 → Instr} {mem : BitVec 3 → Instr}
  {idx : Idx → Byte → BitVec 3 → Instr} {idxReg : Idx → Byte → BitVec 3 → Reg8 → Instr}

/-- An operation that writes exactly one bit, and four rows that store its result and touch no flag: these are all forms of
`SET` or of `RES`. -/
theorem setResForms (hbit : ∀ b v {k}, k < 8 → (f b v).getLsbD k = if k = b.toNat then on else v.getLsbD k)
    (hreg : ∀ s b r, Runs (reg b r) [0xCB#8, opc x b.toNat r.code] s ((s.setR r (f b (s.getR r))).tick (8 - 4)))
    (hmem : ∀ s b, Runs (mem b) [0xCB#8, opc x b.toNat 6] s ((s.write8 s.hl (f b s.atHl)).tick (15 - 4)))
    (hidx : ∀ s ii d b, Runs (idx ii d b) [xyByte ii, 0xCB#8, d, opc x b.toNat 6] s
      ((s.write8 (s.ea ii d) (f b (s.atIi ii d))).tick (23 - 4)))
    (hidxReg : ∀ s ii d b r, Runs (idxReg ii d b r) [xyByte ii, 0xCB#8, d, opc x b.toNat r.code] s
      (((s.write8 (s.ea ii d) (f b (s.atIi ii d))).setR r (f b (s.atIi ii d))).tick (23 - 4))) :
    SetResForms x reg mem idx idxReg on := fun s b =>
  ⟨f b, fun v _ hk => hbit b v hk,
    fun r => ⟨_, hreg s b r, (setR_spec s (8 - 4) r _).imp_right And.symm⟩,
    ⟨_, hmem s b, write8_spec s (15 - 4) s.hl _⟩,
    fun ii d => ⟨_, hidx s ii d b, write8_spec s (23 - 4) (s.ea ii d) _⟩,
    fun ii d r => ⟨_, hidxReg s ii d b r, write8_setR_spec s (23 - 4) (s.ea ii d) _ r _⟩⟩

end

/-- Settles O47: all forms of both operations (`setResForms`); the bit they write is `bitSet_bit` and `bitRes_bit`. -/
theorem setAndResetForms : Obligations.SetAndResetForms :=
  ⟨setResForms bitSet_bit (fun _ _ _ => .cb rfl rfl rfl) (fun _ _ => .cb rfl rfl rfl) (fun _ _ _ _ => .xyCb rfl rfl rfl)
      (fun _ _ _ _ _ => .xyCb rfl rfl rfl),
    setResForms bitRes_bit (fun _ _ _ => .cb rfl rfl rfl) (fun _ _ => .cb rfl rfl rfl) (fun _ _ _ _ => .xyCb rfl rfl rfl)
      (fun _ _ _ _ _ => .xyCb rfl rfl rfl)⟩

end Sys2Proof.Machine
end

section
/-! PROOFS. Block transfer, search, input and output (spec 46_block.md): the sixteen rows are the four element steps of
Machine/Block.lean, each with an address step of +1 or -1, under `repeatIf`. A single-step form is one that never repeats. -/

namespace Sys2Proof.Machine

open State

/-! ## The end of an execution (R291) -/

/-- Repeating or not decides `PC` and the counter only. -/
theorem repeatIf_eq (b : Bool) (u : State) : repeatIf b u =
    { u with pc := if b then u.pc - 2#16 else u.pc, cycles := u.cycles + ((if b then 21 else 16) - 4) } := by
  cases b <;> rfl

/-- The element step of a block instruction moves neither `PC` nor the counter, so `repeatIf` decides both. -/
theorem blockEnd_repeatIf {s u : State} {again b : Bool} (hpc : u.pc = s.pc) (hcyc : u.cycles = s.cycles)
    (h : again = b) : BlockEnd again s (repeatIf b u) := by
  rw [h, repeatIf_eq, BlockEnd, ← hpc, ← hcyc]
  exact ⟨rfl, rfl⟩

@[simp] theorem repeatIf_bc (b : Bool) (u : State) : (repeatIf b u).bc = u.bc := by rw [repeatIf_eq]
@[simp] theorem repeatIf_getF (b : Bool) (u : State) : (repeatIf b u).getF = u.getF := by rw [repeatIf_eq]; rfl
@[simp] theorem repeatIf_getB (b : Bool) (u : State) : (repeatIf b u).getB = u.getB := by rw [repeatIf_eq]; rfl

theorem bne_zero_eq_decide {n : Nat} (w : BitVec n) : (w != 0#n) = decide (w ≠ 0#n) := decide_not.symm

/-! The three continue conditions, read in the state after the execution (R294, R298, R302). -/

theorem bc_ne_zero_repeatIf (b : Bool) (u : State) : decide ((repeatIf b u).bc ≠ 0#16) = (u.bc != 0#16) := by
  rw [repeatIf_bc, bne_zero_eq_decide]

theorem bc_ne_zero_no_match_repeatIf (b : Bool) (u : State) :
    decide ((repeatIf b u).bc ≠ 0#16 ∧ (repeatIf b u).getF.getLsbD 6 = false) = (u.bc != 0#16 && !flagZ u.getF) := by
  rw [repeatIf_bc, repeatIf_getF, bne_zero_eq_decide, Bool.decide_and, Bool.decide_eq_false]; rfl

theorem b_ne_zero_repeatIf (b : Bool) (u : State) : decide ((repeatIf b u).getB ≠ 0#8) = (u.getB != 0#8) := by
  rw [repeatIf_getB, bne_zero_eq_decide]

/-! ## Flags (R292, R296, R300, R304) -/

theorem blockLdFlags_bits (n : Byte) (bc : Word) (f : Byte) :
    FlagBits (blockLdFlags n bc f) (f.getLsbD 7) (f.getLsbD 6) (n.getLsbD 1) false (n.getLsbD 3) (decide (bc ≠ 0#16))
      false (f.getLsbD 0) :=
  (packF_bits ..).congr rfl rfl rfl rfl rfl (bne_zero_eq_decide bc) rfl rfl

/-- A difference is 0 exactly where the operands are equal. -/
theorem zeroB_sub (a v : Byte) : zeroB (a - v) = decide (a = v) :=
  decide_eq_decide.2 sub_eq_zero

theorem cpiN_eq (a v : Byte) : cpiN a v = a - v - BitVec.ofNat 8 (cpiHalf a v).toNat := by
  rw [cpiN]; cases cpiHalf a v <;> rfl

theorem blockCpFlags_bits (a v : Byte) (bc : Word) (f : Byte) :
    let h := decide (a.toNat % 16 < v.toNat % 16)
    let n := a - v - BitVec.ofNat 8 h.toNat
    FlagBits (blockCpFlags a v bc f) ((a - v).getLsbD 7) (decide (a = v)) (n.getLsbD 1) h (n.getLsbD 3)
      (decide (bc ≠ 0#16)) true (f.getLsbD 0) :=
  (packF_bits ..).congr rfl (zeroB_sub a v) (congrArg (·.getLsbD 1) (cpiN_eq a v)) rfl
    (congrArg (·.getLsbD 3) (cpiN_eq a v)) (bne_zero_eq_decide bc) rfl rfl

/-- A mask of the low three bits is the remainder by 8. -/
theorem ofNat_and_seven (k : Nat) : BitVec.ofNat 8 k &&& 0x07#8 = BitVec.ofNat 8 (k % 8) := by
  apply BitVec.eq_of_toNat_eq
  have hmask : (BitVec.ofNat 8 k &&& 0x07#8).toNat = k % 256 % 8 := Nat.and_two_pow_sub_one_eq_mod (k % 256) 3
  rw [hmask, BitVec.toNat_ofNat]
  omega

theorem blockIoFlags_of_getF {v : Byte} {k : Nat} {b : Byte} {t : State} (h : t.getF = blockIoFlags v k b) :
    BlockIoFlags v k b t :=
  .of_getF h ((packF_bits ..).congr rfl rfl rfl rfl rfl (by rw [parity_eq_evenOnes, ofNat_and_seven]) rfl rfl)

/-! ## The element steps (R292, R296, R300, R304), repeating as `b` says -/

section

variable (s : State) (k : Step) {again b : Bool} (h : again = b)

include h

theorem moveStep_spec :
    let t := repeatIf b (moveStep k s)
    MoveElement k s t ∧ BlockEnd again s t := by
  refine ⟨?_, blockEnd_repeatIf rfl rfl h⟩
  obtain ⟨-, hput⟩ := write8_spec s 0 s.de s.atHl
  rw [repeatIf_eq]
  exact ⟨rfl, hi_setLo .., hput.of_mem rfl, .of_getF (lo_setLo ..) (blockLdFlags_bits ..)⟩

theorem searchStep_spec :
    let t := repeatIf b (searchStep k s)
    SearchElement k s t ∧ BlockEnd again s t := by
  refine ⟨?_, blockEnd_repeatIf rfl rfl h⟩
  rw [repeatIf_eq]
  exact ⟨rfl, fun _ => rfl, hi_setLo .., .of_getF (lo_setLo ..) (blockCpFlags_bits ..)⟩

theorem inputStep_spec {m : Byte} (hm : lo k = m) :
    let t := repeatIf b (inputStep k s)
    InputElement k m s t ∧ BlockEnd again s t := by
  subst hm
  refine ⟨⟨s.ioByte s.bc, (s.readReply s.bc).2, ?_⟩, blockEnd_repeatIf rfl rfl h⟩
  have hread (a : Word) : ((s.ioRead s.bc).write8 s.hl (s.ioByte s.bc)).read8 a
      = if a = s.hl then s.ioByte s.bc else byteAfter (s.readReply s.bc).2 s a := by
    rw [read8_write8, read8_ioRead]
  rw [repeatIf_eq]
  exact ⟨rfl, ioRead_spec s s.bc, hread, hi_setLo .., rfl, rfl, lo_setHi .., hi_setHi ..,
    blockIoFlags_of_getF (lo_setLo ..)⟩

theorem outputStep_spec :
    let t := repeatIf b (outputStep k s)
    OutputElement k s t ∧ BlockEnd again s t := by
  refine ⟨⟨s.writeReply (setHi s.bc (s.getB - 1#8)) s.atHl, ?_⟩, blockEnd_repeatIf rfl rfl h⟩
  rw [repeatIf_eq, ← lo_toNat]
  exact ⟨rfl, ioWrite_spec s _ _, read8_ioWrite s _ _, hi_setLo .., rfl, rfl, lo_setHi .., hi_setHi ..,
    blockIoFlags_of_getF (lo_setLo ..)⟩

end

/-! ## The sixteen rows -/

/-- Settles O48: each row is `moveStep` forward or backward (`moveStep_spec`). -/
theorem blockMoves : Obligations.BlockMoves := fun s =>
  ⟨⟨_, .ed rfl rfl rfl, moveStep_spec s fwd (b := false) rfl⟩,
    ⟨_, .ed rfl rfl rfl, moveStep_spec s bwd (b := false) rfl⟩,
    ⟨_, .ed rfl rfl rfl, moveStep_spec s fwd (bc_ne_zero_repeatIf ..)⟩,
    ⟨_, .ed rfl rfl rfl, moveStep_spec s bwd (bc_ne_zero_repeatIf ..)⟩⟩

/-- Settles O49: each row is `searchStep` forward or backward (`searchStep_spec`). -/
theorem blockSearches : Obligations.BlockSearches := fun s =>
  ⟨⟨_, .ed rfl rfl rfl, searchStep_spec s fwd (b := false) rfl⟩,
    ⟨_, .ed rfl rfl rfl, searchStep_spec s bwd (b := false) rfl⟩,
    ⟨_, .ed rfl rfl rfl, searchStep_spec s fwd (bc_ne_zero_no_match_repeatIf ..)⟩,
    ⟨_, .ed rfl rfl rfl, searchStep_spec s bwd (bc_ne_zero_no_match_repeatIf ..)⟩⟩

/-- Settles O50: each row is `inputStep` forward or backward (`inputStep_spec`); `C` in the sum steps by the low byte of the
address step. -/
theorem blockInputs : Obligations.BlockInputs := fun s =>
  ⟨⟨_, .ed rfl rfl rfl, inputStep_spec s fwd (b := false) rfl rfl⟩,
    ⟨_, .ed rfl rfl rfl, inputStep_spec s bwd (b := false) rfl rfl⟩,
    ⟨_, .ed rfl rfl rfl, inputStep_spec s fwd (b_ne_zero_repeatIf ..) rfl⟩,
    ⟨_, .ed rfl rfl rfl, inputStep_spec s bwd (b_ne_zero_repeatIf ..) rfl⟩⟩

/-- Settles O51: each row is `outputStep` forward or backward (`outputStep_spec`). -/
theorem blockOutputs : Obligations.BlockOutputs := fun s =>
  ⟨⟨_, .ed rfl rfl rfl, outputStep_spec s fwd (b := false) rfl⟩,
    ⟨_, .ed rfl rfl rfl, outputStep_spec s bwd (b := false) rfl⟩,
    ⟨_, .ed rfl rfl rfl, outputStep_spec s fwd (b_ne_zero_repeatIf ..)⟩,
    ⟨_, .ed rfl rfl rfl, outputStep_spec s bwd (b_ne_zero_repeatIf ..)⟩⟩

end Sys2Proof.Machine
end

section
/-! PROOFS. Control transfer (spec 47_control_transfer.md): each row moves `PC` by a jump, a call or a return; a conditional row
does so or does nothing but count its cycles. -/

namespace Sys2Proof.Machine

/-! ## Jumps (R320 to R327) -/

/-- A jump taken or not decides `PC` and the counter only. -/
theorem jumpIf_eq (s : State) (c : Bool) (a : Word) (m n : Nat) :
    (if c then { s with pc := a }.tick m else s.tick n) =
      { s with pc := if c then a else s.pc, cycles := s.cycles + if c then m else n } := by
  cases c <;> rfl

theorem execJpCc_eq (cc : Cond) (nn : Word) (s : State) :
    execJpCc cc nn s = .next { s with pc := if s.cond cc then nn else s.pc, cycles := s.cycles + 10 } := by
  rw [execJpCc, apply_ite (State.tick · 10), jumpIf_eq, ite_self]

theorem execJrCc_eq (cc : Cond) (e : Byte) (s : State) :
    execJrCc cc e s = .next { s with pc := if s.cond cc then s.relTarget e else s.pc,
                                     cycles := s.cycles + if s.cond cc then 12 else 7 } := by
  rw [execJrCc, jumpIf_eq]

theorem getB_setB (s : State) (v : Byte) : (s.setB v).getB = v := hi_setHi s.bc v

/-- `DJNZ` decrements `B` first and jumps unless the new `B` is 0 (R325). -/
theorem execDjnz_eq (e : Byte) (s : State) :
    let u := s.setB (s.getB - 1#8)
    execDjnz e s = .next { u with pc := if u.getB = 0#8 then s.pc else s.relTarget e,
                                  cycles := s.cycles + if u.getB = 0#8 then 8 else 13 } := by
  intro u
  have hu : u.getB = s.getB - 1#8 := getB_setB ..
  rw [execDjnz, jumpIf_eq, bne_zero_eq_decide, hu]
  simp only [decide_eq_true_eq, ite_not]
  rfl

/-- The number that the opcode byte of `JR cc` is: its field `y` is the condition's code and 4 (R324). -/
theorem opc_jrCc (cc : Cond) : opc 0 (cc.code + 4) 0 = op8 (0x20 + 8 * cc.code) :=
  congrArg (BitVec.ofNat 8) (by omega)

/-- Settles O53: the unconditional jumps are the states written out, the conditional ones by what their meanings answer
(`execJpCc_eq`, `execJrCc_eq`, `execDjnz_eq`). -/
theorem jumps : Obligations.Jumps := fun s =>
  ⟨fun l h => .np rfl (entry_of_word rfl h l) rfl,
    fun cc l h => .np rfl (entry_of_word (opc_eq_op8 3 cc.code 2) h l) (execJpCc_eq cc (h ++ l) s),
    fun _ => .np rfl rfl rfl,
    fun cc e _ => .np rfl (congrArg (· :: [e]) (opc_jrCc cc)) (execJrCc_eq cc e s),
    fun e => ⟨_, .np rfl rfl (execDjnz_eq e s), getB_setB .., lo_setHi .., rfl⟩,
    .np rfl rfl rfl,
    fun _ => .xy rfl rfl rfl⟩

/-! ## Calls, returns and restarts (R330 to R335, R340) -/

/-- A conditional call or return makes the transfer, or is the state of the row not taken. -/
theorem transferIf_spec {c : Bool} {taken kept : State} {P : State → Prop} (h : P taken) :
    (c = true → P (if c then taken else kept)) ∧ (c = false → (if c then taken else kept) = kept) :=
  ⟨fun hc => by rwa [if_pos hc], fun hc => by rw [hc]; rfl⟩

/-- A call and a tick: the return address stands below the old `SP`. -/
theorem callTo_spec (s : State) (n : Nat) (target : Word) : Called n target s ((callTo target s).tick n) :=
  ⟨by rw [callTo, push16_frame]; rfl, (push16_put s s.pc).of_mem rfl⟩

/-- A return and a tick: `PC` is the word at the old `SP`. -/
theorem returnTo_spec (s : State) (n : Nat) : Returned n s ((returnTo s).tick n) :=
  ⟨by rw [returnTo, pop16_frame, top16_eq]; rfl, fun _ => rfl⟩

/-- `RETN` and `RETI` are the return from the state whose `iff1` is `iff2`, which leaves the status alone (R334, R335). -/
theorem returnFromInterrupt_spec (s : State) :
    Returned (14 - 4) { s with iff1 := s.iff2 } (s.returnFromInterrupt.tickPrefixed 14) :=
  returnTo_spec { s with iff1 := s.iff2 } (14 - 4)

/-- Settles O54: each row is a call (`callTo_spec`), under a condition for `CALL cc`. -/
theorem calls : Obligations.Calls := fun s =>
  ⟨fun l h => ⟨_, .np rfl (entry_of_word rfl h l) rfl, callTo_spec s 17 (h ++ l)⟩,
    fun cc l h => ⟨_, .np rfl (entry_of_word (opc_eq_op8 3 cc.code 4) h l) rfl,
      transferIf_spec (callTo_spec s 17 (h ++ l))⟩,
    fun y => ⟨_, .np rfl (congrArg (· :: []) (opc_eq_op8 3 y.toNat 7)) rfl, callTo_spec s 11 _⟩⟩

/-- Settles O55: each row is a return (`returnTo_spec`), under a condition for `RET cc`; `RETN`, its mirrors and `RETI` copy the
latch first (`returnFromInterrupt_spec`). -/
theorem returns : Obligations.Returns := fun s =>
  ⟨⟨_, .np rfl rfl rfl, returnTo_spec s 10⟩,
    fun cc => ⟨_, .np rfl (congrArg (· :: []) (opc_eq_op8 3 cc.code 0)) rfl, transferIf_spec (returnTo_spec s 11)⟩,
    fun y _ => ⟨_, .ed rfl (congrArg (· :: []) (opc_eq_op8 1 y.toNat 5)) rfl, returnFromInterrupt_spec s⟩,
    ⟨_, .ed rfl rfl rfl, returnFromInterrupt_spec s⟩⟩

end Sys2Proof.Machine
end

section
/-! PROOFS. Every instruction completes, and what it does to the status of the interrupt check, the ports and the request lines
(spec 48_io_cpu_control.md R350, R361, 60_exceptions.md R380, R401). -/

namespace Sys2Proof.Machine

/-! ## Completion (R380, R401) -/

/-- The meaning of a row that is no kept entry answers a next state in every case. -/
theorem exec_completes {i : Instr} (hn : ∀ ii k, i ≠ .npUnchanged ii k) (s : State) : ∃ t, exec i s = .next t := by
  cases i
  case npUnchanged ii k => exact absurd rfl (hn ii k)
  all_goals exact ⟨_, rfl⟩

/-- Settles O15: a well-formed kept entry completes by `exec_kept`, every other row by `exec_completes`. -/
theorem everyInstructionCompletes : Obligations.EveryInstructionCompletes := by
  intro i s hw
  by_cases hk : ∃ ii j, i = .npUnchanged ii j
  · obtain ⟨ii, j, rfl⟩ := hk
    exact exec_kept hw ii s
  · push Not at hk
    exact exec_completes hk s

/-! ## The status of the check, the ports and the request lines (R350, R361) -/

theorem ioClass_effective {i : Instr} (hn : ∀ ii k, effective i ≠ .npUnchanged ii k) :
    ioClass (effective i) = ioClass i := by
  unfold ioClass; rw [effective_of_not_kept hn]

/-- The ports' reactions, the log and the request lines are as they were. -/
def PortsKept (s t : State) : Prop :=
  t.ioCount = s.ioCount ∧ t.ioIn = s.ioIn ∧ t.ioOut = s.ioOut ∧ t.ioLog = s.ioLog ∧ t.reqNmi = s.reqNmi ∧ t.reqMi = s.reqMi

/-- The instructions that write control components access no port, and of them only `EI` writes the status. -/
theorem exec_portsKept_of_writesControl {i : Instr} {s t : State} (hc : writesControl i = true) (h : exec i s = .next t) :
    PortsKept s t ∧ (i ≠ .ei → t.istat = s.istat) := by
  cases i
  all_goals first
    | exact Bool.noConfusion (show false = true from hc)
    | obtain rfl := Host.Outcome.next.inj h
  case ei => exact ⟨⟨rfl, rfl, rfl, rfl, rfl, rfl⟩, fun he => absurd rfl he⟩
  case retn | reti => simp [PortsKept, State.returnFromInterrupt]
  all_goals exact ⟨⟨rfl, rfl, rfl, rfl, rfl, rfl⟩, fun _ => rfl⟩

/-- An instruction that is not IO-class accesses no port; `EI` apart it leaves the status. -/
theorem exec_portsKept {i : Instr} {s t : State} (hn : ∀ ii k, i ≠ .npUnchanged ii k) (hio : ioClass i = false)
    (h : exec i s = .next t) : PortsKept s t ∧ (i ≠ .ei → t.istat = s.istat) := by
  cases hc : writesControl i with
  | true => exact exec_portsKept_of_writesControl hc h
  | false =>
    rw [exec_ordinary hn hc hio h]
    exact ⟨⟨rfl, rfl, rfl, rfl, rfl, rfl⟩, fun _ => rfl⟩

/-- `EI` sets both latches and records the counter after its own cycles (R361). -/
theorem exec_ei_spec (s : State) :
    ∃ t, exec .ei s = .next t ∧ t.pfx = s.pfx ∧ t.iff1 = true ∧ t.iff2 = true ∧ t.istat = .ei t.cycles :=
  ⟨_, rfl, rfl, rfl, rfl, rfl⟩

/-- Settles O17: the effective instruction accesses a port as `exec_port` says or keeps the ports and, `EI` apart, the status
(`exec_portsKept`). -/
theorem ioClassEffects : Obligations.IoClassEffects := by
  intro i s t h
  obtain ⟨hx, hn, -⟩ := exec_effective h
  rw [← ioClass_effective hn]
  refine ⟨fun hio => (exec_port hn hio hx).2, fun hio => (exec_portsKept hn hio hx).1, fun he => ?_,
    fun hio => (exec_portsKept hn hio hx).2⟩
  obtain ⟨u, hu, -, -, -, hs⟩ := exec_ei_spec s
  rw [he, hu] at hx
  exact Host.Outcome.next.inj hx ▸ hs

end Sys2Proof.Machine
end

section
/-! PROOFS. Port input, port output and CPU control (spec 48_io_cpu_control.md): a port row is one port access, then registers of
the main set and the counter. -/

namespace Sys2Proof.Machine

open State

/-! ## Port input (R351 to R353) -/

theorem getR_ioRead (s : State) (p : Word) (r : Reg8) : (s.ioRead p).getR r = s.getR r := by cases r <;> rfl

/-- A read, then a change of nothing but the main set, is a port step. -/
theorem portStep_of_ioRead {s t : State} {p : Word} {n : Nat} (h : MainOnly n (s.ioRead p) t) :
    PortStep n (.read p (s.ioByte p)) s t := by
  obtain ⟨ht, -⟩ := h
  rw [ht]
  exact ⟨rfl, rfl, rfl, _, ioRead_spec s p, read8_ioRead s p⟩

/-- A read changes no register, so a register set after it is the only one that changed. -/
theorem RegSet.of_ioRead {s t : State} {p : Word} {r : Reg8} {v : Byte} (h : RegSet r v (s.ioRead p) t) : RegSet r v s t :=
  ⟨h.1, fun x hx => (h.2 x hx).trans (getR_ioRead s p x)⟩

/-- Reading a port into a register: no flag changes (R351). -/
theorem ioRead_setR_spec (s : State) (n : Nat) (p : Word) (r : Reg8) :
    let t := ((s.ioRead p).setR r (s.ioByte p)).tick n
    PortStep n (.read p (s.ioByte p)) s t ∧ RegSet r (s.ioByte p) s t ∧ t.getF = s.getF := by
  obtain ⟨hmain, hf, hreg⟩ := setR_spec (s.ioRead p) n r (s.ioByte p)
  exact ⟨portStep_of_ioRead hmain, hreg.of_ioRead, hf⟩

/-- Reading a port into a register, with the flags of the byte read (R352). -/
theorem ioRead_setF_setR_spec (s : State) (n : Nat) (p : Word) (r : Reg8) :
    let v := s.ioByte p
    let t := (((s.ioRead p).setF (inFlags v s.getF)).setR r v).tick n
    PortStep n (.read p v) s t ∧ RegSet r v s t ∧ FlagsOf v t.getF false (evenOnes v) false (s.getF.getLsbD 0) := by
  obtain ⟨hmain, hreg, hf⟩ := setF_setR_spec (s.ioRead p) n (inFlags (s.ioByte p) s.getF) r (s.ioByte p)
  exact ⟨portStep_of_ioRead hmain, hreg.of_ioRead, .of_getF hf (inFlags_spec _ s.getF)⟩

/-- Reading a port for the flags alone (R353). -/
theorem ioRead_setF_spec (s : State) (n : Nat) (p : Word) :
    let v := s.ioByte p
    let t := ((s.ioRead p).setF (inFlags v s.getF)).tick n
    PortStep n (.read p v) s t ∧ t.getA = s.getA ∧ t.bc = s.bc ∧ t.de = s.de ∧ t.hl = s.hl
      ∧ FlagsOf v t.getF false (evenOnes v) false (s.getF.getLsbD 0) := by
  obtain ⟨⟨hframe, hmem⟩, ha, hf⟩ := setF_spec (s.ioRead p) n (inFlags (s.ioByte p) s.getF)
  exact ⟨portStep_of_ioRead ⟨hframe, hmem⟩, ha, rfl, rfl, rfl, .of_getF hf (inFlags_spec _ s.getF)⟩

/-- Settles O56: each row reads its port into a register (`ioRead_setR_spec`, `ioRead_setF_setR_spec`) or for the flags alone
(`ioRead_setF_spec`). -/
theorem portInputs : Obligations.PortInputs := fun s =>
  ⟨fun n => ⟨_, _, .np rfl rfl rfl, ioRead_setR_spec s 11 (s.portAN n) .a⟩,
    fun r => ⟨_, _, .ed rfl (congrArg (· :: []) (opc_eq_op8 1 r.code 0)) rfl, ioRead_setF_setR_spec s (12 - 4) s.bc r⟩,
    ⟨_, _, .ed rfl rfl rfl, ioRead_setF_spec s (12 - 4) s.bc⟩⟩

/-! ## Port output (R354 to R356) -/

/-- A write to a port and a tick: no register changes. -/
theorem ioWrite_spec_tick (s : State) (n : Nat) (p : Word) (v : Byte) :
    let t := (s.ioWrite p v).tick n
    PortStep n (.write p v) s t ∧ t.af = s.af ∧ t.bc = s.bc ∧ t.de = s.de ∧ t.hl = s.hl :=
  ⟨⟨rfl, rfl, rfl, _, ioWrite_spec s p v, read8_ioWrite s p v⟩, rfl, rfl, rfl, rfl⟩

/-- Settles O57: each row is one write to its port (`ioWrite_spec_tick`). -/
theorem portOutputs : Obligations.PortOutputs := fun s =>
  ⟨fun n => ⟨_, .np rfl rfl rfl, ioWrite_spec_tick s 11 (s.portAN n) s.getA⟩,
    fun r => ⟨_, .ed rfl (congrArg (· :: []) (opc_eq_op8 1 r.code 1)) rfl, ioWrite_spec_tick s (12 - 4) s.bc (s.getR r)⟩,
    ⟨_, .ed rfl rfl rfl, ioWrite_spec_tick s (12 - 4) s.bc 0x00#8⟩⟩

/-! ## CPU control (R358 to R365) -/

/-- Settles O58: the meanings write out these states; the byte of `IM` keeps the field `y` that the row ignores. -/
theorem cpuControl : Obligations.CpuControl := fun _ =>
  ⟨.np rfl rfl rfl, .np rfl rfl rfl, .np rfl rfl rfl, .np rfl rfl rfl,
    fun y _ => .ed rfl (congrArg (· :: []) (opc_eq_op8 1 y.toNat 6)) rfl,
    fun y _ => .ed rfl (congrArg (· :: []) (opc_eq_op8 1 y.toNat 6)) rfl,
    fun y _ => .ed rfl (congrArg (· :: []) (opc_eq_op8 1 y.toNat 6)) rfl,
    fun _ _ => .ed rfl rfl rfl⟩

end Sys2Proof.Machine
end

section
/-! PROOFS. The interrupt check, the window after `EI` and the one fault (spec 60_exceptions.md R380 to R404, 40_dispatch.md R98,
48_io_cpu_control.md R361). -/

namespace Sys2Proof.Machine

/-! ## What a check accepts (R385 to R392) -/

/-- At a boundary with a check due, the step is the check (R98). -/
theorem step_of_checkDue {s : State} (hb : AtBoundary s) (hc : CheckDue s) : step s = interruptCheck s :=
  step_check ((iteration_check s).2 ⟨hb, hc⟩)

/-- Settles O6: the step is the check, which accepts the request first (`interruptCheck_nmi`). -/
theorem nmiIsAccepted : Obligations.NmiIsAccepted := by
  intro s hb hc hn
  obtain ⟨t, ht, ⟨ha, -⟩⟩ := interruptCheck_nmi hn
  exact ⟨t, (step_of_checkDue hb hc).trans ht, ha⟩

/-- Settles O7: the step is the check, which accepts in the mode's way (`acceptMi_im1`, `acceptMi_im2`, `acceptMi_im0`) or only
sets the status (`interruptCheck_none`). -/
theorem maskableInterrupts : Obligations.MaskableInterrupts := by
  intro s hb hc hn
  rw [step_of_checkDue hb hc]
  refine ⟨fun v hv hf => ?_, interruptCheck_none hn⟩
  rw [interruptCheck_mi hn hv hf]
  refine ⟨fun hm => ?_, fun hm => ?_, acceptMi_im0 v⟩
  · obtain ⟨t, ht, ⟨ha, -⟩⟩ := acceptMi_im1 v hn hm
    exact ⟨t, ht, ha⟩
  · obtain ⟨t, ht, ⟨ha, -⟩⟩ := acceptMi_im2 v hn hm
    exact ⟨t, ht, ha⟩

/-! ## The one fault (R380, R382, R392) -/

/-- A check here accepts a maskable interrupt in mode 0. -/
def AcceptsInMode0 (s : State) : Prop := s.reqNmi = false ∧ s.reqMi.isSome = true ∧ s.iff1 = true ∧ s.im = .im0

theorem interruptCheck_of_acceptsInMode0 {s : State} (h : AcceptsInMode0 s) : interruptCheck s = .fault .im0Service := by
  obtain ⟨hn, hr, hf, hm⟩ := h
  obtain ⟨v, hv⟩ := Option.isSome_iff_exists.1 hr
  rw [interruptCheck_mi hn hv hf, acceptMi_im0 v hm]

/-- Every other check goes on: it accepts the non-maskable request, accepts nothing, or accepts in mode 1 or 2. -/
theorem interruptCheck_completes {s : State} (h : ¬ AcceptsInMode0 s) : ∃ t, interruptCheck s = .next t := by
  cases hn : s.reqNmi with
  | true => exact (interruptCheck_nmi hn).imp fun _ => And.left
  | false =>
    cases hv : s.reqMi with
    | none => exact ⟨_, interruptCheck_none hn (.inl hv)⟩
    | some v =>
      cases hf : s.iff1 with
      | false => exact ⟨_, interruptCheck_none hn (.inr hf)⟩
      | true =>
        rw [interruptCheck_mi hn hv hf]
        rcases mode_cases s.im with hm | hm | hm
        · exact absurd ⟨hn, by rw [hv]; rfl, hf, hm⟩ h
        · exact (acceptMi_im1 v hn hm).imp fun _ => And.left
        · exact (acceptMi_im2 v hn hm).imp fun _ => And.left

/-- A fetch finds a well-formed instruction (`decodeIsTotal`), and that completes. -/
theorem step_completes_of_fetch {s : State} {tab : Table} (h : s.iteration = .fetch tab) : ∃ t, step s = .next t := by
  obtain ⟨i, rest, hd, hw, -⟩ := decodeIsTotal tab (s.read8 s.pc) (s.read8 (s.pc + 1#16)) (s.read8 (s.pc + 2#16))
  rw [step_fetch h hd]
  exact everyInstructionCompletes i _ hw

theorem step_completes {s : State} (h : ¬ (AtBoundary s ∧ CheckDue s ∧ AcceptsInMode0 s)) : ∃ t, step s = .next t := by
  cases hi : s.iteration with
  | check =>
    obtain ⟨hb, hc⟩ := (iteration_check s).1 hi
    rw [step_check hi]
    exact interruptCheck_completes fun ha => h ⟨hb, hc, ha⟩
  | spin => exact ⟨_, step_spin hi⟩
  | fetch tab => exact step_completes_of_fetch hi

/-- Settles O8: a step either is the check that accepts in mode 0 or completes (`step_completes`). -/
theorem stopsOnlyInMode0 : Obligations.StopsOnlyInMode0 := by
  intro s
  by_cases h : AtBoundary s ∧ CheckDue s ∧ AcceptsInMode0 s
  · have hs : step s = .fault .im0Service :=
      (step_of_checkDue h.1 h.2.1).trans (interruptCheck_of_acceptsInMode0 h.2.2)
    rw [hs]
    exact ⟨nofun, fun f => ⟨fun hf => ⟨(Host.Outcome.fault.inj hf).symm, h⟩, fun hf => congrArg _ hf.1.symm⟩⟩
  · obtain ⟨t, ht⟩ := step_completes h
    rw [ht]
    exact ⟨nofun, fun f => ⟨nofun, fun hf => absurd hf.2 h⟩⟩

/-! ## The window after `EI` (R98, R361) -/

/-- An `EI` that has just completed opens no check. -/
theorem not_checkDue_of_istat_now {s : State} (h : s.istat = .ei s.cycles) : ¬ CheckDue s := by
  simp [CheckDue, h]

/-- A prefix row keeps the status of the check. -/
theorem exec_istat_of_prefixRow {i : Instr} {s t : State} (hp : isPrefixRow i = true) (h : exec i s = .next t) :
    t.istat = s.istat := by
  cases i
  all_goals first
    | exact Bool.noConfusion (show false = true from hp)
    | obtain rfl := Host.Outcome.next.inj h
  all_goals rfl

/-- After any instruction but a prefix row or `EI` the recorded time has passed, or the status is `Check`. -/
theorem checkDue_of_exec {i : Instr} {s t : State} {n : Nat} (hp : isPrefixRow i = false) (he : effective i ≠ .ei)
    (hs : s.istat = .ei n) (hle : n ≤ s.cycles) (h : exec i s = .next t) : CheckDue t := by
  obtain ⟨hport, -, -, hkept⟩ := ioClassEffects i s t h
  cases hio : ioClass i with
  | true =>
    obtain ⟨ev, e, -, -, hc, -⟩ := hport hio
    exact .inl hc
  | false =>
    have hc : s.cycles + 4 ≤ t.cycles := (cyclesOfAStep.2 i s t hp h).1
    exact .inr ⟨n, (hkept hio he).trans hs, by omega⟩

/-- The prefix bytes lead to no instruction boundary (R70, R71). -/
theorem pfxAfter_of_prefixRow {i : Instr} (h : isPrefixRow i = true) (p : Pfx) :
    pfxAfter p i ≠ .noPrefix ∧ pfxAfter p i ≠ .halt := by
  cases i
  case prefixCbXy ii => cases ii <;> exact ⟨nofun, nofun⟩
  all_goals first
    | exact Bool.noConfusion (show false = true from h)
    | exact ⟨nofun, nofun⟩

/-- A row of table `NP` is no kept entry. -/
theorem effective_of_table_np {i : Instr} (h : i.table = .np) : effective i = i :=
  effective_of_not_kept fun ii k hk => by subst hk; cases ii <;> cases h

/-- Table `NP` reads `EI` from its own byte only. -/
theorem read8_of_decodeIn_ei {s : State} {rest : List Byte} (h : decodeIn .np s.window = .ok (.ei, rest)) :
    s.read8 s.pc = 0xFB#8 := by
  obtain ⟨i, rest', hd, -, hb⟩ := decodeIn_readsBack .np (s.read8 s.pc) (s.read8 (s.pc + 1#16)) (s.read8 (s.pc + 2#16))
  cases hd.symm.trans h
  exact (List.cons.inj hb).1.symm

/-- Where no check is due at the byte of `EI`, the step runs `EI`. -/
theorem step_of_ei {s : State} (hp : s.pfx = .noPrefix) (hc : ¬ CheckDue s) (hop : s.read8 s.pc = 0xFB#8) :
    step s = exec .ei (fetched s .np 1) := by
  refine step_of_decodeIn (rest := [s.read8 (s.pc + 1#16), s.read8 (s.pc + 2#16)]) hp (fun _ => hc) ?_
  rw [State.window, hop]
  rfl

/-- The instruction after `EI`, if it ends at a boundary and is no `EI`, leaves a check due. -/
theorem checkDue_after_ei {t u : State} (hp : t.pfx = .noPrefix) (hs : t.istat = .ei t.cycles) (h : step t = .next u)
    (hb : AtBoundary u) (hop : t.read8 t.pc ≠ 0xFB#8) : CheckDue u := by
  have hf : t.iteration = .fetch .np := (iteration_fetch t .np).2 ⟨hp, fun _ => not_checkDue_of_istat_now hs⟩
  rcases step_cases h with ⟨hi, -⟩ | ⟨hi, -⟩ | ⟨tab, i, rest, hi, hd, hx⟩
  · cases hf.symm.trans hi
  · cases hf.symm.trans hi
  · cases hf.symm.trans hi
    have he : effective i = i := effective_of_table_np (decodeIn_table hd)
    have hpre : isPrefixRow i = false := by
      by_contra hpre
      obtain ⟨hne, hne'⟩ := pfxAfter_of_prefixRow (Bool.not_eq_false _ ▸ hpre) .noPrefix
      rw [AtBoundary, fetched_exec_pfx hf hx, he] at hb
      exact hb.elim hne hne'
    have hei : effective i ≠ .ei := by
      rw [he]
      rintro rfl
      exact hop (read8_of_decodeIn_ei hd)
    exact checkDue_of_exec hpre hei (by rw [fetched_istat, hs]) (by rw [fetched_cycles]) hx

/-- Settles O9: `EI` runs and records the time (`step_of_ei`), a prefix row keeps it, and the next instruction passes it
(`checkDue_of_exec`). -/
theorem eiWindow : Obligations.EiWindow := by
  refine ⟨fun s hp hc hop => ?_, fun i s t hp h => ⟨exec_istat_of_prefixRow hp h, exec_cycles_le h⟩,
    fun i s t n hp he hs hle h => checkDue_of_exec hp he hs hle h⟩
  obtain ⟨t, ht, hpt, h1, h2, hs⟩ := exec_ei_spec (fetched s .np 1)
  have hpt : t.pfx = .noPrefix := hpt.trans hp
  exact ⟨t, (step_of_ei hp hc hop).trans ht, hpt, h1, h2, hs, not_checkDue_of_istat_now hs,
    fun u h hb hne => checkDue_after_ei hpt hs h hb hne⟩

/-! ## The sticky fault (R381, R420) -/

/-- Settles O22: an action is a reset, or the execution stays as it is. -/
theorem faultIsSticky : Obligations.FaultIsSticky := by
  intro f s a
  cases a with
  | reset d => exact .inl ⟨d, rfl, rfl⟩
  | _ => exact .inr ⟨nofun, rfl⟩

end Sys2Proof.Machine
end
